-- ==== Sys2Proof/Word.lean ====
section
/-! DEFINITION. The word types of RB2 and their plainest arithmetic (spec 00_scope.md R7, R8). -/

namespace Sys2Proof

/-- A byte: 8 bits (R8). -/
abbrev Byte := BitVec 8

/-- A 64-bit register, count or latch. Read as a number it is the `int64` of R7, `BitVec.toInt`. -/
abbrev Word := BitVec 64

/-- The least `int64` (R7). -/
def minInt64 : Int := -9223372036854775808

/-- The greatest `int64`, `2^63 - 1` (R7). -/
def maxInt64 : Int := 9223372036854775807

/-- Is the integer an `int64` (R7)? -/
def inInt64 (x : Int) : Bool := decide (minInt64 ≤ x) && decide (x ≤ maxInt64)

/-- The 64-bit word that holds an exact integer result. Arithmetic is exact over the integers and is
narrowed only when it is stored (R7, R69); on an `int64` nothing is lost (log entry 20). -/
def narrow (x : Int) : Word := BitVec.ofInt 64 x

end Sys2Proof
end

