-- ==== Sys2Proof/Syntax.lean ====
section
/-! DEFINITION. The commands of RB2, one constructor per row of spec/opcode_table.json, and the small sets of names
they are spoken of with: ports, step labels, statuses. -/

namespace Sys2Proof

/-- A command with its count operand `n = sext_64(CNT)` (30_encoding.md R74, R75). A command that takes no operand has
none here. The payload of WRITE and PUBL is not in the command word: it is the port's `PAYLOAD` input (R77). -/
inductive Instr
  /-- `WRITE n` (40_producer_commands.md R92). -/
  | write (n : Word)
  /-- `RSVE` (R94). -/
  | rsve
  /-- `PUBL k` (R95). -/
  | publ (k : Word)
  /-- `READ cap` (41_consumer_commands.md R108). -/
  | read (cap : Word)
  /-- `PEEK n` (R110). -/
  | peek (n : Word)
  /-- `COMMIT n` (R112). -/
  | commit (n : Word)
  /-- `READFROM` (42_macro_commands.md R118). -/
  | readFrom
  /-- `READFROMB` (R119). -/
  | readFromB
  /-- `WRITETO` (R120). -/
  | writeTo
  /-- `CLOSE` (43_common_commands.md R128). -/
  | close
  /-- `LEN` (R126). -/
  | len
  /-- `ID` (R127). -/
  | ident
  deriving DecidableEq, Repr

/-- The count operand of a command; a command with no operand has `CNT = 0` (R73, R80). -/
def Instr.count : Instr → Word
  | .write n => n
  | .rsve => 0
  | .publ k => k
  | .read cap => cap
  | .peek n => n
  | .commit n => n
  | .readFrom => 0
  | .readFromB => 0
  | .writeTo => 0
  | .close => 0
  | .len => 0
  | .ident => 0

/-- The two command ports, and so the two agents (10_state.md R13; 30_encoding.md R71). -/
inductive Port
  | P
  | C
  deriving DecidableEq, Repr

/-- The step labels of the pseudocode (00_scope.md R10). The labels W2, V2, A2, B2 are the calls of `Gate` and `CWait`,
and F1, F3, E2, T1 the expansions of an inner command: their first inner step stands for them. -/
inductive Label
  | W1 | W3 | W4
  | G1 | G2 | G3 | G4
  | V1 | V3
  | U1 | U2
  | A1 | A3 | A4
  | K1 | K2 | K3 | K4
  | B1 | B3
  | M1 | M2 | M3
  | F0 | F2 | F4
  | E0 | E1 | E3
  | T0 | T2 | T3
  | L1 | L2
  | I1
  | C1
  deriving DecidableEq, Repr

/-- The status kinds of 30_encoding.md R83. Codes 8 to 15 are never produced and have no name here (U10). -/
inductive Status
  | ok
  | eos
  | insuf
  | full
  | neg
  | notPow2
  | tooSmall
  | illegal
  /-- `EXT(x)`, an external source's or sink's own code, `16 <= x <= 255`. -/
  | ext (x : Byte)
  deriving DecidableEq, Repr

end Sys2Proof
end

