-- ==== Sys2Proof/Decode.lean ====
section
/-! DEFINITION. The command word `CMD68` (30_encoding.md R72, R74, R75, R79, R80): a total decoder that rejects by
name, and the encoder written from the same tables. What a decoded command may do on a port and in a state (R86 cases
1, 3, 5, 6) is Machine/Operands.lean. -/

namespace Sys2Proof

/-- `OP = CMD[67:64]` (R72). -/
def opField (w : BitVec 68) : BitVec 4 := w.extractLsb' 64 4

/-- `CNT = CMD[63:0]` (R72). -/
def cntField (w : BitVec 68) : Word := w.extractLsb' 0 64

/-- Why a word is no command on any port. -/
inductive Reject
  /-- `OP` is 0x0, 0x7, 0xB or 0xF (R79; R86 case 2). -/
  | reservedOpcode (op : BitVec 4)
  /-- The command takes no operand and `CNT` is not 0 (R80; R86 case 4). -/
  | countNotZero (op : BitVec 4)
  deriving DecidableEq, Repr

/-- What a word decodes to. -/
inductive Decoded
  | instr (i : Instr)
  | illegal (r : Reject)
  deriving DecidableEq, Repr

/-- A command without an operand is legal only with `CNT = 0` (R80). -/
def noOperand (i : Instr) (w : BitVec 68) : Decoded :=
  if cntField w = 0 then .instr i else .illegal (.countNotZero (opField w))

/-- The opcode map (R75), total on every 68-bit word. -/
def decode (w : BitVec 68) : Decoded :=
  match (opField w).toNat with
  | 0x1 => .instr (.write (cntField w))
  | 0x2 => noOperand .rsve w
  | 0x3 => .instr (.publ (cntField w))
  | 0x4 => .instr (.read (cntField w))
  | 0x5 => .instr (.peek (cntField w))
  | 0x6 => .instr (.commit (cntField w))
  | 0x8 => noOperand .readFrom w
  | 0x9 => noOperand .readFromB w
  | 0xA => noOperand .writeTo w
  | 0xC => noOperand .close w
  | 0xD => noOperand .len w
  | 0xE => noOperand .ident w
  | _ => .illegal (.reservedOpcode (opField w))

/-- The opcode number of a command (R75). -/
def opcode : Instr → BitVec 4
  | .write _ => 0x1
  | .rsve => 0x2
  | .publ _ => 0x3
  | .read _ => 0x4
  | .peek _ => 0x5
  | .commit _ => 0x6
  | .readFrom => 0x8
  | .readFromB => 0x9
  | .writeTo => 0xA
  | .close => 0xC
  | .len => 0xD
  | .ident => 0xE

/-- The word of a command, `{OP, CNT}` (R72, R87). -/
def encode (i : Instr) : BitVec 68 := opcode i ++ i.count

/-- The command a table row's bits give: the word of `nbits` bits (72 in whole bytes) with every bit above `nbits`
zero. A number that does not fit the 68 bits of `CMD68` is no word (log entry 25). -/
def decodeTableWord (nbits w : Nat) : Option Instr :=
  let v := w % 2 ^ nbits
  if v < 2 ^ 68 then
    match decode (BitVec.ofNat 68 v) with
    | .instr i => some i
    | .illegal _ => none
  else none

end Sys2Proof
end

