-- ==== Sys2Proof/Config.lean ====
section
/-! DEFINITION. The implementation parameters of spec 00_scope.md R6 and their defaults. They are not state of
the block (10_state.md R14): State carries them unchanged so that every claim quantifies over them (log entry 10). -/

namespace Sys2Proof

/-- What a cross-port cursor load may return (20_memory.md R59). -/
inductive SampleLag
  | none
  | lagging
  deriving DecidableEq, Repr

/-- The parameters a model of RB2 takes beside the straps (R6; 92_eei_decisions.md, OPEN parameters). -/
structure Params where
  /-- The source's `defaultReadBlock`. -/
  rblk : Nat := 1024
  /-- The source's `defaultWriteBlock`. -/
  wblk : Nat := 2048
  /-- The source's `defaultBufferSize`. -/
  defSize : Nat := 1048576
  /-- The size of a cache line and of one sequence line. -/
  lineBytes : Nat := 64
  /-- OPEN; default `none`. -/
  sampleLag : SampleLag := .none
  /-- OPEN (`WRITETO_COMMIT_ON_SINK_ERROR`); default `false`. -/
  commitOnSinkError : Bool := false
  deriving DecidableEq, Repr

namespace Params

/-- `MINSIZE = 2 * RBLK`, the smallest legal `SIZE` (R6). -/
def minSize (q : Params) : Nat := 2 * q.rblk

/-- The dead words behind the cursor and the gate slot that fill one sequence line of `LINE_BYTES` (10_state.md R20 to R22,
R27): six for 64 bytes. Where `LINE_BYTES` is no whole number of words the last word reaches past it, and a line never
lacks its first two words (log entry 10). -/
def padWords (q : Params) : Nat := (q.lineBytes + 7) / 8 - 2

/-- The constraints the spec puts on the parameters: positive, `WBLK <= 2 * RBLK`, `DEFSIZE` a power of two
`>= 2 * RBLK` that a `SIZE` register holds (92_eei_decisions.md, OPEN parameters; D38). -/
def ok (q : Params) : Bool :=
  decide (1 ≤ q.rblk) && decide (1 ≤ q.wblk) && decide (q.wblk ≤ q.minSize) && decide (1 ≤ q.lineBytes) &&
    decide (q.minSize ≤ q.defSize) && (List.range 63).any (fun k => q.defSize == 2 ^ k)

end Params

namespace Config

/-- The parameters of State.reset: the defaults of R6. -/
def defaultParams : Params := {}

/-- The strap `cfg_size` of State.reset. DESIGN CHOICE (log entry 1): 0, which the spec reads as `DEFSIZE` (R149). -/
def resetCfgSize : Word := 0

/-- The strap `cfg_id` of State.reset. DESIGN CHOICE (log entry 1): 1. -/
def resetCfgId : Word := 1

end Config

end Sys2Proof
end

