-- ==== Sys2Proof/WellFormed.lean ====
section
/-! DEFINITION. What may be presented to the block: the (command, payload) pair (30_encoding.md R77), and what the
external collaborators may answer (42_macro_commands.md R116, R117). Every count is 64 bits wide, so a command has no
ill-formed word of its own; what can be ill-formed is the pair and the answers. -/

namespace Sys2Proof

/-- R77: for WRITE and PUBL with `0 <= n <= SIZE` the payload is exactly `n` bytes; outside that range whatever was
presented is discarded. Every other command ignores its payload. -/
def Instr.payloadFits (size : Word) (payload : List Byte) : Instr → Bool
  | .write n => !(decide (0 ≤ n.toInt) && decide (n.toInt ≤ size.toInt)) || decide ((payload.length : Int) = n.toInt)
  | .publ k => !(decide (0 ≤ k.toInt) && decide (k.toInt ≤ size.toInt)) || decide ((payload.length : Int) = k.toInt)
  | .rsve => true
  | .read _ => true
  | .peek _ => true
  | .commit _ => true
  | .readFrom => true
  | .readFromB => true
  | .writeTo => true
  | .close => true
  | .len => true
  | .ident => true

/-- The end indication `e` of one answer of the external source (R116). -/
inductive SrcErr
  | none
  | eos
  | ext (x : Byte)
  deriving DecidableEq, Repr

/-- One answer `(k, d, e)` of the external source; `k` is the length of `data` (R116). -/
structure SrcAnswer where
  data : List Byte
  err : SrcErr
  deriving DecidableEq, Repr

/-- One answer `(k, e)` of the external sink; `err = none` is no error, `some x` is `EXT(x)` (R117). -/
structure SinkAnswer where
  count : Nat
  err : Option Byte
  deriving DecidableEq, Repr

/-- An external code lies in `16 .. 255` (R116, R117). -/
def extCodeOk (x : Byte) : Bool := decide (16 ≤ x.toNat)

/-- The contract of `SrcRead(max)`: `0 <= k <= max`, and an `EXT` code in range (R116, U8). -/
def SrcAnswer.fits (max : Int) (a : SrcAnswer) : Bool :=
  decide ((a.data.length : Int) ≤ max) &&
    match a.err with
    | .none => true
    | .eos => true
    | .ext x => extCodeOk x

/-- The contract of `SinkWrite(v)`: `0 <= k <= |v|`, `k = |v|` when there is no error, and an `EXT` code in range
(R117, U8). -/
def SinkAnswer.fits (view : List Byte) (a : SinkAnswer) : Bool :=
  match a.err with
  | none => decide (a.count = view.length)
  | some x => decide (a.count ≤ view.length) && extCodeOk x

end Sys2Proof
end

