-- ==== Sys2Proof/Machine/State.lean ====
section
/-! DEFINITION. The state of RB2: every register, byte space, latch and port of spec 10_state.md and 30_encoding.md
R71, the environment's inputs, the reasons a step can stop, and the state after reset. -/

namespace Sys2Proof.Machine

/-- Why the machine can stop with a fault. The block itself has no traps (60_exceptions.md R133): each of these is a
situation no rule of the spec reaches, so each is safe (log entries 3, 14). -/
inductive Fault
  /-- Raised by a byte-space read of a cell that nothing has written since reset (10_state.md R40: unspecified; no rule
  reads one). Safe. -/
  | unwrittenByte
  /-- Raised by a byte-space access outside `0 .. SIZE - 1` (20_memory.md R50: no rule makes one). Safe. -/
  | outOfBounds
  /-- Raised when a port's phase names a label that is no step of its command, or a command that the port cannot have
  accepted (10_state.md R33: no rule leads there). Safe. -/
  | strayPhase
  deriving DecidableEq, Repr

/-- Why a step can be refused. -/
inductive Refusal
  /-- A command that has no meaning in this model yet. Raised in Dispatch only. Safe. -/
  | notModelled (mnemonic : String)
  /-- `exec` was asked for another command than the one the port is executing (30_encoding.md R71: a port takes one
  command at a time). Never raised through `step`. Safe (log entry 22). -/
  | portBusy
  /-- A (CMD, PAYLOAD) pair whose payload length differs from a legal CNT (R77; U11: refuse). Safe (log entry 12). -/
  | illFormedPair
  /-- A command whose `next` would make `PSEQ.cursor + SIZE > 2^63 - 1` (20_memory.md R69; U3: refuse). Safe (log
  entry 11). -/
  | cursorOverflow
  /-- The external source broke its contract (42_macro_commands.md R116; U8: refuse). Safe (log entry 13). -/
  | sourceBroken
  /-- The external sink broke its contract (R117; U8: refuse). Safe (log entry 13). -/
  | sinkBroken
  deriving DecidableEq, Repr

/-- A byte space: (index, byte) pairs, indices strictly rising. -/
abbrev Memory := List Host.Cell

/-- One sequence line: the 64-bit words that fill `LINE_BYTES`, eight for 64 bytes (10_state.md R20 to R22; 90_conflicts.md
C1; 00_scope.md R6). In `CSEQ` the word `gate` is the dead `CSEQ.pad1`. The number of dead words is `Params.padWords`. -/
structure SeqLine where
  cursor : Word
  gate : Word
  pad : List Word
  deriving DecidableEq, Repr

/-- The reservation registers `RSV.*` (R32). -/
structure Reservation where
  valid : Bool
  pos : Word
  len : Word
  deriving DecidableEq, Repr

/-- `CFGSTATE` (R31). -/
inductive CfgState
  | cfgFail
  | ready
  deriving DecidableEq, Repr

/-- A phase register (R33): IDLE, or the command in execution with its step label. -/
inductive Phase
  | idle
  | run (i : Instr) (l : Label)
  deriving DecidableEq, Repr

/-- The response record (30_encoding.md R82). -/
structure Response where
  status : Status
  n : Word := 0
  aux : Word := 0
  rdata : List Byte := []
  deriving DecidableEq, Repr

/-- A command as the environment presents it: the pair (`CMD`, `PAYLOAD`) (R71). -/
structure Presented where
  cmd : BitVec 68
  payload : List Byte := []
  deriving DecidableEq, Repr

/-- One command port (R71): its phase, its inputs, its outputs, and the environment's script for it. -/
structure PortState where
  /-- `P.phase` or `C.phase` (10_state.md R33). -/
  phase : Phase
  /-- The input `CMD`: the word presented last. -/
  cmd : BitVec 68
  /-- The input `PAYLOAD`. -/
  payload : List Byte
  /-- The outputs `RSP` and `RDATA`: every response handed back, oldest first (log entry 17). -/
  responses : List Response
  /-- The commands the environment will present on this port, oldest first (R14). Model's own field. -/
  script : List Presented
  /-- The bound `f` of 20_memory.md R59 for this agent's samples. Model's own field (log entry 9). -/
  floor : Word
  deriving DecidableEq, Repr

/-- The working latches of agent P (10_state.md R34). `err` is the `e` of 42_macro_commands.md R118 (log entry 15). -/
structure PLatches where
  n : Word
  ppos : Word
  next : Word
  wrap : Word
  g : Word
  c : Word
  total : Word
  data : List Byte
  err : SrcErr
  deriving DecidableEq, Repr

/-- The working latches of agent C (R34). `view` is `out` of 41_consumer_commands.md R108 and `view` of R120; `k` and
`err` are the sink's answer of R120 (log entry 15). -/
structure CLatches where
  n : Word
  cpos : Word
  ppos : Word
  avail : Word
  m : Word
  start : Word
  total : Word
  view : List Byte
  k : Word
  err : Option Byte
  deriving DecidableEq, Repr

/-- One entry of the environment's schedule (R14, 30_encoding.md R89). -/
inductive Turn
  /-- The agent of port `a` takes one step; `lag` says how far back a lagging sample looks (20_memory.md R59). -/
  | run (a : Port) (lag : Nat)
  /-- The environment asserts and releases `rst` with these straps (70_reset_and_hazards.md R149, R157). -/
  | rst (cfgSize cfgId : Word)
  deriving DecidableEq, Repr

/-- The environment's inputs other than the two scripts (R14), and what the external sink has been given. -/
structure Env where
  sched : List Turn
  source : List SrcAnswer
  sink : List SinkAnswer
  delivered : List (List Byte)
  deriving DecidableEq, Repr

/-- The state. INVENTORY.md lists every field with the rule that names it. -/
structure State where
  pseq : SeqLine
  cseq : SeqLine
  done : Bool
  size : Word
  mask : Word
  ident : Word
  cwait : Word
  cfgState : CfgState
  cfgErr : Status
  hint : Word
  rsv : Reservation
  buf : Memory
  tmp : Memory
  p : PLatches
  c : CLatches
  pPort : PortState
  cPort : PortState
  turn : Port
  lag : Nat
  env : Env
  params : Params
  deriving DecidableEq, Repr

/-- What a meaning and a step answer. -/
abbrev Out := Host.Outcome State Fault Refusal

/-- A line after reset: cursor and gate 0 (R40); the dead words 0, DESIGN CHOICE (log entry 2). -/
def SeqLine.reset (q : Params) : SeqLine := ⟨0, 0, List.replicate q.padWords 0⟩

/-- No reservation (R40); `pos` and `len` 0, DESIGN CHOICE (log entry 2). -/
def Reservation.reset : Reservation := ⟨false, 0, 0⟩

/-- Latches are unspecified after reset (R40): 0, DESIGN CHOICE (log entry 2). -/
def PLatches.reset : PLatches := ⟨0, 0, 0, 0, 0, 0, 0, [], .none⟩

/-- As `PLatches.reset` (log entry 2). -/
def CLatches.reset : CLatches := ⟨0, 0, 0, 0, 0, 0, 0, [], 0, none⟩

/-- A port on which nothing was ever presented: IDLE (R40). -/
def PortState.reset : PortState := ⟨.idle, 0, [], [], [], 0⟩

/-- An environment that presents and answers nothing. -/
def Env.empty : Env := ⟨[], [], [], []⟩

/-- The machine right after a reset with the straps of Config and the default parameters: R40 and R149. No command is
presented and no schedule given, so no program is in it (log entries 1 to 6). -/
def State.reset : State where
  pseq := SeqLine.reset Config.defaultParams
  cseq := SeqLine.reset Config.defaultParams
  done := false
  size := 1048576
  mask := 1048575
  ident := Config.resetCfgId
  cwait := 0
  cfgState := .ready
  cfgErr := .ok
  hint := 0
  rsv := Reservation.reset
  buf := []
  tmp := []
  p := PLatches.reset
  c := CLatches.reset
  pPort := PortState.reset
  cPort := PortState.reset
  turn := .P
  lag := 0
  env := Env.empty
  params := Config.defaultParams

end Sys2Proof.Machine
end

