-- ==== Sys2Proof/Machine/Ops.lean ====
section
/-! DEFINITION. The named operations over byte spaces, registers and ports that every meaning is made of: `MemRead`,
`MemWrite`, `load_acq`, `store_rel`, `respond`, `phase <- L` (spec 00_scope.md R9), the external calls, and the one
operation that ends a command with a status, which is the block's form of taking an exception (60_exceptions.md R133,
R139). -/

namespace Sys2Proof.Machine

/-! ### Byte spaces -/

/-- What an index that nothing has written reads as: no value, because the contents after reset are unspecified
(10_state.md R40; DESIGN CHOICE, log entry 3). -/
def Memory.unlisted : Option Byte := none

/-- The canonical form of a byte space: indices strictly rising, so equal contents are equal lists. An unlisted index
has no value, so no entry can equal what it reads as. -/
abbrev Memory.wf (m : Memory) : Prop := m.Pairwise (fun x y => x.1 < y.1)

/-- One byte of a space (20_memory.md R50). -/
def Memory.read (m : Memory) (a : Nat) : Option Byte :=
  match m.find? (fun x => x.1 == a) with
  | some x => some x.2
  | none => Memory.unlisted

/-- The bytes of `v` as cells from index `a` on. -/
def cellsAt (a : Nat) : List Byte → Memory
  | [] => []
  | b :: v => (a, b) :: cellsAt (a + 1) v

/-- `space[a + i] <- v[i]` for every byte of `v` (R50). -/
def Memory.write (m : Memory) (a : Nat) (v : List Byte) : Memory :=
  m.filter (fun x => decide (x.1 < a)) ++ cellsAt a v ++ m.filter (fun x => decide (a + v.length ≤ x.1))

/-- The cells of a space with an index in `[a, a + n)`. -/
def Memory.window (m : Memory) (a n : Nat) : Memory :=
  m.filter (fun x => decide (a ≤ x.1) && decide (x.1 < a + n))

/-- The `n` bytes from index `a` in index order, if each of them has been written (R50). -/
def Memory.readRun (m : Memory) (a n : Nat) : Option (List Byte) :=
  let w := m.window a n
  if w.map Prod.fst = List.range' a n then some (w.map Prod.snd) else none

/-- The size of `BUF` and of `TMP` in bytes (10_state.md R15, R17). -/
def State.sizeNat (s : State) : Nat := s.size.toInt.toNat

/-- `MemRead(space, a, n)` on a space of `size` bytes (R50). -/
def memRead (m : Memory) (size a n : Nat) : Except Fault (List Byte) :=
  if a + n ≤ size then
    match m.readRun a n with
    | some v => .ok v
    | none => .error .unwrittenByte
  else .error .outOfBounds

/-- `MemWrite(space, a, |v|, v)` on a space of `size` bytes (R50). -/
def memWrite (m : Memory) (size a : Nat) (v : List Byte) : Except Fault Memory :=
  if a + v.length ≤ size then .ok (m.write a v) else .error .outOfBounds

/-- `ringCopy(space, v, start)`: as much as fits up to the physical end, the rest from index 0 (R51, R52). -/
def ringCopy (m : Memory) (size start : Nat) (v : List Byte) : Except Fault Memory :=
  let k := min v.length (size - start)
  match memWrite m size start (v.take k) with
  | .error f => .error f
  | .ok m' => if k < v.length then memWrite m' size 0 (v.drop k) else .ok m'

/-- Is index `a` one of the cells `ringCopy` writes: the image of a run of `n` positions from index `start` (R49)? -/
def ringCovers (size start n a : Nat) : Bool :=
  let k := min n (size - start)
  (decide (start ≤ a) && decide (a < start + k)) || decide (a < n - k)

/-! ### Named updates of the state -/

/-- `store_rel(PSEQ.cursor, v)` (20_memory.md R57; 10_state.md R24). -/
def State.storePseq (s : State) (v : Word) : State := { s with pseq := { s.pseq with cursor := v } }

/-- `PSEQ.gate <- v` (R25). -/
def State.setGate (s : State) (v : Word) : State := { s with pseq := { s.pseq with gate := v } }

/-- `store_rel(CSEQ.cursor, v)` (R26, R57). -/
def State.storeCseq (s : State) (v : Word) : State := { s with cseq := { s.cseq with cursor := v } }

/-- `store_atomic(DONE, 1)` (20_memory.md R61). -/
def State.setDone (s : State) : State := { s with done := true }

/-- `CWAIT <- (CWAIT + 1) mod 2^64` (10_state.md R30). -/
def State.bumpCwait (s : State) : State := { s with cwait := s.cwait + 1 }

/-- `RSV.* <- r` (R32). -/
def State.setRsv (s : State) (r : Reservation) : State := { s with rsv := r }

/-- Replace the contents of `BUF`. -/
def State.setBuf (s : State) (m : Memory) : State := { s with buf := m }

/-- Replace the contents of `TMP`. -/
def State.setTmp (s : State) (m : Memory) : State := { s with tmp := m }

/-- Replace agent P's latches. -/
def State.setP (s : State) (p : PLatches) : State := { s with p := p }

/-- Replace agent C's latches. -/
def State.setC (s : State) (c : CLatches) : State := { s with c := c }

/-- Replace the environment's inputs. -/
def State.setEnv (s : State) (e : Env) : State := { s with env := e }

/-! ### Ports -/

/-- The port with a given name. -/
def State.port (s : State) : Port → PortState
  | .P => s.pPort
  | .C => s.cPort

/-- Replace one port. -/
def State.setPort (s : State) (a : Port) (x : PortState) : State :=
  match a with
  | .P => { s with pPort := x }
  | .C => { s with cPort := x }

/-- The phase register of the agent whose step it is (10_state.md R33). -/
def State.phase (s : State) : Phase := (s.port s.turn).phase

/-- The phase with its label replaced; IDLE has none. -/
def Phase.withLabel (l : Label) : Phase → Phase
  | .idle => .idle
  | .run i _ => .run i l

/-- `phase <- L` (00_scope.md R9; R33). -/
def State.goto (s : State) (l : Label) : State :=
  s.setPort s.turn { s.port s.turn with phase := (s.port s.turn).phase.withLabel l }

/-- `respond(status, n, aux, data)`: the one way a command ends, with or without an error. The response is handed
back and the phase returns to IDLE; nothing is saved and no mode changes (60_exceptions.md R133, R139, R140). -/
def State.respond (s : State) (r : Response) : State :=
  s.setPort s.turn
    { s.port s.turn with phase := .idle, responses := (s.port s.turn).responses ++ [r] }

/-- The outcome of `respond`: a next state. -/
def respond (r : Response) (s : State) : Out := .next (s.respond r)

/-- The answer to a word that is no command here: `respond(ILLEGAL, 0, 0, empty)` (30_encoding.md R86). -/
def respondIllegal (s : State) : Out := respond ⟨.illegal, 0, 0, []⟩ s

/-- `phase <- L` as the outcome of a step. -/
def goto (l : Label) (s : State) : Out := .next (s.goto l)

/-! ### Cross-port loads -/

/-- The value a cross-port cursor load returns: the current one, or with `SAMPLE_LAG = lagging` any value between the
floor and the current one, chosen by the environment's `lag` (20_memory.md R59; log entry 9). -/
def observe (mode : SampleLag) (floor cur : Word) (lag : Nat) : Word :=
  match mode with
  | .none => cur
  | .lagging => narrow (min cur.toInt (max floor.toInt (cur.toInt - lag)))

/-- The cursor that belongs to the other agent than `a`'s. -/
def State.otherCursor (s : State) : Port → Word
  | .P => s.cseq.cursor
  | .C => s.pseq.cursor

/-- `load_acq` of the other agent's cursor by the agent whose step it is (R57, R59). -/
def State.sample (s : State) : Word :=
  observe s.params.sampleLag (s.port s.turn).floor (s.otherCursor s.turn) s.lag

/-- The state after that load: successive samples by one agent never decrease (R59), so the sample is the new floor. -/
def State.noteSample (s : State) : State := s.setPort s.turn { s.port s.turn with floor := s.sample }

/-- `load_atomic(DONE)` (R61). It returns the current value in both modes: R59 says so for `SAMPLE_LAG = none`, and whether
a lagging agent may still see a stale 0 is left open (R59's lagging case speaks of cursors; R67 (b) and
43_common_commands.md R130 promise only that repeated loads eventually return 1). DESIGN CHOICE, unsafe (log entry
29). -/
def State.loadDone (s : State) : Bool := s.done

end Sys2Proof.Machine
end

