-- ==== Sys2Proof/Machine/Operands.lean ====
section
/-! DEFINITION. Operand forms: the index projection and the physical image of a run of positions, port capability and
the part of decoding that needs the port and the state (spec 30_encoding.md R76, R86), presenting and accepting a
command, and the `AUX` descriptor of a view. -/

namespace Sys2Proof.Machine

/-! ### Positions and indices -/

/-- `idx(s) = s & MASK` (20_memory.md R48). -/
def idxOf (mask pos : Word) : Nat := (pos &&& mask).toNat

/-- `idx` in a state. -/
def State.idx (s : State) (pos : Word) : Nat := idxOf s.mask pos

/-- A run of `n` positions whose first index is `a` is contiguous (R49). -/
def contiguous (size a n : Nat) : Bool := decide (a + n ≤ size)

/-- The byte of `BUF` at a sequence position (R53). -/
def State.at (s : State) (pos : Int) : Option Byte := s.buf.read (s.idx (narrow pos))

/-- The `AUX` of a view: bit 63 is `src` (1 for `TMP`), bits 62 to 0 the index of the first byte (30_encoding.md
R84). -/
def viewAux (inTmp : Bool) (base : Nat) : Word := BitVec.ofBool inTmp ++ BitVec.ofNat 63 base

/-! ### Which command a port takes -/

/-- Port capability (30_encoding.md R76; 60_exceptions.md R141). -/
def accepts (a : Port) : Instr → Bool
  | .write _ => decide (a = .P)
  | .rsve => decide (a = .P)
  | .publ _ => decide (a = .P)
  | .read _ => decide (a = .C)
  | .peek _ => decide (a = .C)
  | .commit _ => decide (a = .C)
  | .readFrom => decide (a = .P)
  | .readFromB => decide (a = .P)
  | .writeTo => decide (a = .C)
  | .close => true
  | .len => true
  | .ident => true

/-- The standing reservation admits the command (R86 cases 5 and 6). -/
def admitted (r : Reservation) : Instr → Bool
  | .write _ => !r.valid
  | .rsve => !r.valid
  | .readFrom => !r.valid
  | .readFromB => !r.valid
  | .publ k => r.valid && decide (0 ≤ k.toInt) && decide (k.toInt ≤ r.len.toInt)
  | .read _ => true
  | .peek _ => true
  | .commit _ => true
  | .writeTo => true
  | .close => true
  | .len => true
  | .ident => true

/-- The cases of R86 that need the port and the state: 1, 3, 5 and 6. -/
def legal (a : Port) (i : Instr) (s : State) : Bool :=
  decide (s.cfgState = .ready) && accepts a i && admitted s.rsv i

/-- R86 whole: a port, a word and a state give a command or ILLEGAL (`none`). -/
def decodeAt (a : Port) (w : BitVec 68) (s : State) : Option Instr :=
  match decode w with
  | .instr i => if legal a i s then some i else none
  | .illegal _ => none

/-! ### Presenting and accepting -/

/-- The environment presents its next pair: the port's inputs take it (R71). -/
def present (pr : Presented) (rest : List Presented) (a : Port) (s : State) : State :=
  s.setPort a { s.port a with cmd := pr.cmd, payload := pr.payload, script := rest }

/-- The larger of two words, as signed numbers. -/
def maxWord (x y : Word) : Word := if x.toInt ≤ y.toInt then y else x

/-- The argument test of WRITE, PEEK and COMMIT: `NEG` for `n < 0`, `FULL` for `n > SIZE` (60_exceptions.md R136). -/
def argError (size n : Int) : Option Status :=
  if n < 0 then some .neg else if size < n then some .full else none

/-- The payload a WRITE or PUBL of `n` bytes takes; outside `0 .. SIZE` whatever was presented is discarded (30_encoding.md
R77). -/
def takenPayload (size n : Word) (payload : List Byte) : List Byte :=
  if argError size.toInt n.toInt = none then payload else []

/-- The latches of the agent take the operands of a command that has some: `p.n` and `p.data`, or `c.n` (10_state.md
R34). -/
def latchOperands (i : Instr) (s : State) : State :=
  match i with
  | .write n => s.setP { s.p with n := n, data := takenPayload s.size n s.pPort.payload }
  | .publ k => s.setP { s.p with n := k, data := takenPayload s.size k s.pPort.payload }
  | .read cap => s.setC { s.c with n := cap }
  | .peek n => s.setC { s.c with n := n }
  | .commit n => s.setC { s.c with n := n }
  | .rsve => s
  | .readFrom => s
  | .readFromB => s
  | .writeTo => s
  | .close => s
  | .len => s
  | .ident => s

/-- The port of the agent whose step it is, its bound `f` raised to the value the other cursor holds now, as the acceptance
of a command raises it (20_memory.md R59). -/
def State.acceptedPort (s : State) : PortState :=
  { s.port s.turn with floor := maxWord (s.port s.turn).floor (s.otherCursor s.turn) }

/-- The bound of R59 raised at the start of an inner command of a macro, which the model takes as presented there. DEDUCED
from 42_macro_commands.md R123 and D39 (log entry 9). -/
def State.raiseFloor (s : State) : State := s.setPort s.turn s.acceptedPort

/-- Acceptance: the phase takes the command's first step (R33), the operands are latched, and the floor of R59 rises to
the value the other cursor holds now. -/
def accept (i : Instr) (first : Label) (s : State) : State :=
  latchOperands i (s.setPort s.turn { s.acceptedPort with phase := .run i first })

/-- One step of a command on the port whose step it is. At IDLE the command is decoded against port and state (R86),
its pair checked (R77), and acceptance is merged with the first labelled step, as R10 allows (log entry 7); otherwise
the phase says which labelled step comes next. -/
def command (i : Instr) (first : Label) (body : Label → State → Out) (s : State) : Out :=
  match s.phase with
  | .idle =>
    if legal s.turn i s then
      if i.payloadFits s.size (s.port s.turn).payload then body first (accept i first s)
      else .refused .illFormedPair
    else respondIllegal s
  | .run j l =>
    if j = i then
      if accepts s.turn i then body l s else .fault .strayPhase
    else .refused .portBusy

/-- The label is no step of the command. -/
def stray : Out := .fault .strayPhase

end Sys2Proof.Machine
end

