-- ==== Sys2Proof/Machine/Flags.lean ====
section
/-! DEFINITION. The flag computations: the length and fill state (spec 10_state.md R35), status codes and the response
vector (30_encoding.md R82, R83), and the register file seen by number (10_state.md R39) and by byte (R20 to R22). -/

namespace Sys2Proof.Machine

/-! ### Length and fill state -/

/-- `LEN = PSEQ.cursor - CSEQ.cursor` (R35). -/
def State.length (s : State) : Int := s.pseq.cursor.toInt - s.cseq.cursor.toInt

/-- The three fill states; a function of `LEN`, never stored (R35, R41). -/
inductive FillState
  | empty
  | part
  | full
  deriving DecidableEq, Repr

/-- Empty: `LEN = 0`. Full: `LEN = SIZE`. Partial: between (R35). -/
def State.fillState (s : State) : FillState :=
  if s.length = 0 then .empty else if s.length = s.size.toInt then .full else .part

/-- The number of positions the producer may fill (R35). -/
def State.freeRegion (s : State) : Int := s.size.toInt - s.length

/-- `ADDR_BITS = log2(SIZE)`, the bits of a physical index (00_scope.md R6). -/
def State.addrBits (s : State) : Nat := Nat.log2 s.sizeNat

/-! ### Statuses and the response vector -/

/-- The 8-bit code of a status (30_encoding.md R83). -/
def statusCode : Status → Byte
  | .ok => 0
  | .eos => 1
  | .insuf => 2
  | .full => 3
  | .neg => 4
  | .notPow2 => 5
  | .tooSmall => 6
  | .illegal => 7
  | .ext x => x

/-- `RSP = {STATUS, N, AUX}`, 136 bits (R82). -/
def Response.rsp (r : Response) : BitVec 136 := statusCode r.status ++ r.n ++ r.aux

/-- PEEK's status: `OK` when all `n` bytes are there, else `INSUF` (41_consumer_commands.md R110). -/
def peekStatus (m n : Int) : Status := if m = n then .ok else .insuf

/-! ### Registers by number and lines by byte -/

/-- `CFGSTATE` as its bit: 1 READY, 0 CFG_FAIL (R31). -/
def CfgState.bit : CfgState → Nat
  | .cfgFail => 0
  | .ready => 1

/-- The width of a register in bits, by its number (R39). -/
def regWidth : Nat → Nat
  | 16 => 1
  | 21 => 1
  | 22 => 8
  | 24 => 1
  | _ => 64

/-- The words of a line, word 0 first: eight for a line of 64 bytes (R21, R22). -/
def SeqLine.words (l : SeqLine) : List Word := l.cursor :: l.gate :: l.pad

/-- The bits of a register by its number, as an unsigned number; `none` for a number R39 does not give, or for a dead word
that a shorter line lacks. Naming only: no command addresses a register by number. -/
def State.regBits (s : State) (k : Nat) : Option Nat :=
  if k < 8 then (s.pseq.words[k]?).map BitVec.toNat
  else if k < 16 then (s.cseq.words[k - 8]?).map BitVec.toNat
  else
    match k with
    | 16 => some s.done.toNat
    | 17 => some s.size.toNat
    | 18 => some s.mask.toNat
    | 19 => some s.ident.toNat
    | 20 => some s.cwait.toNat
    | 21 => some s.cfgState.bit
    | 22 => some (statusCode s.cfgErr).toNat
    | 23 => some s.hint.toNat
    | 24 => some s.rsv.valid.toNat
    | 25 => some s.rsv.pos.toNat
    | 26 => some s.rsv.len.toNat
    | _ => none

/-- A word as its eight bytes, least significant first (20_memory.md R53). -/
def wordBytes (w : Word) : List Byte := (List.range 8).map (fun k => w.extractLsb' (8 * k) 8)

/-- A line as its bytes, word `k` at offset `8 * k` (R20, R53). -/
def SeqLine.bytes (l : SeqLine) : List Byte := l.words.flatMap wordBytes

end Sys2Proof.Machine
end

