-- ==== Sys2Proof/Machine/Common.lean ====
section
/-! DEFINITION. The commands of both ports LEN, ID and CLOSE (spec 43_common_commands.md), and the reset sequence, which
is the block's form of the constructor (70_reset_and_hazards.md R149 to R153, R157). -/

namespace Sys2Proof.Machine

/-- LEN, steps L1, L2 (R126): the issuing port's own cursor, then one sample of the other. With `SAMPLE_LAG = lagging` R126
and U7 say that the answer is exactly `LEN` at L2, while R59 and U14 let the load at L2 return an older value; the model
answers with the value loaded, so the answer may differ from `LEN` at L2. DESIGN CHOICE (log entry 30). -/
def lenStep (l : Label) (s : State) : Out :=
  match l, s.turn with
  | .L1, .P => goto .L2 (s.setP { s.p with ppos := s.pseq.cursor })
  | .L1, .C => goto .L2 (s.setC { s.c with cpos := s.cseq.cursor })
  | .L2, .P =>
    let v := s.sample
    respond ⟨.ok, narrow (s.p.ppos.toInt - v.toInt), 0, []⟩ (s.noteSample.setP { s.p with c := v })
  | .L2, .C =>
    let v := s.sample
    respond ⟨.ok, narrow (v.toInt - s.c.cpos.toInt), 0, []⟩ (s.noteSample.setC { s.c with ppos := v })
  | _, _ => stray

/-- ID, step I1 (R127). -/
def identStep (l : Label) (s : State) : Out :=
  match l with
  | .I1 => respond ⟨.ok, s.ident, 0, []⟩ s
  | _ => stray

/-- CLOSE, step C1 (R128). -/
def closeStep (l : Label) (s : State) : Out :=
  match l with
  | .C1 => respond ⟨.ok, 0, 0, []⟩ s.setDone
  | _ => stray

/-- LEN (R126). -/
def execLen (s : State) : Out := command .len .L1 lenStep s

/-- ID (R127). -/
def execIdent (s : State) : Out := command .ident .I1 identStep s

/-- CLOSE (R128, R129). -/
def execClose (s : State) : Out := command .close .C1 closeStep s

/-! ### Reset -/

/-- A size is a power of two when `s >= 1` and `s & (s - 1) = 0` (70_reset_and_hazards.md R149). -/
def isPow2 (w : Word) : Bool := decide (1 ≤ w.toInt) && decide (w &&& (w - 1) = 0)

/-- The least of the candidates `c`, `2c`, `4c`, … that reaches `bound`; 0 when `fuel` candidates do not. -/
def leastDoubling (bound : Int) : Nat → Int → Int
  | 0, _ => 0
  | fuel + 1, c => if bound ≤ c then c else leastDoubling bound fuel (2 * c)

/-- `Hint(s)`: the least size configuration accepts that is `>= s`, 0 when there is none (R151). Where `2 * RBLK` is no power
of two that is the least power of two above it. DEDUCED (log entry 21). -/
def hintOf (q : Params) (s : Int) : Int := leastDoubling (max s q.minSize) 63 1

/-- The outcome of the strap checks Z1 to Z4: a `SIZE`, or the error with its `HINT` (R149, R150). -/
inductive CfgResult
  | size (w : Word)
  | fail (e : Status) (hint : Int)
  deriving DecidableEq, Repr

/-- Z1 to Z4, in their order (R149). -/
def checkSize (q : Params) (cfgSize : Word) : CfgResult :=
  if cfgSize.toInt < 0 then .fail .neg 0
  else
    let w : Word := if cfgSize = 0 then narrow q.defSize else cfgSize
    if !isPow2 w then .fail .notPow2 (hintOf q w.toInt)
    else if w.toInt < q.minSize then .fail .tooSmall 0
    else .size w

/-- A port after a reset: IDLE, a command in progress abandoned without a response (R157). The environment's script,
the port's inputs and the responses already handed back are not the block's to clear (log entry 18). -/
def PortState.abandoned (x : PortState) : PortState := { x with phase := .idle, floor := 0 }

/-- `rst` with its straps (R149, R157): every register takes its reset value and configuration runs. When it fails
the three status registers say why, and the registers no command can then reach stay as they stood (U4; log entry
4). -/
def resetWith (cfgSize cfgId : Word) (s : State) : State :=
  match checkSize s.params cfgSize with
  | .size w =>
    { s with
      pseq := SeqLine.reset s.params, cseq := SeqLine.reset s.params, done := false, size := w,
      mask := narrow (w.toInt - 1),
      ident := cfgId, cwait := 0, cfgState := .ready, cfgErr := .ok, hint := 0, rsv := Reservation.reset,
      buf := [], tmp := [], p := PLatches.reset, c := CLatches.reset,
      pPort := s.pPort.abandoned, cPort := s.cPort.abandoned }
  | .fail e h =>
    { s with
      cfgState := .cfgFail, cfgErr := e, hint := narrow h,
      pPort := s.pPort.abandoned, cPort := s.cPort.abandoned }

end Sys2Proof.Machine
end

