-- ==== Sys2Proof/Machine/Consumer.lean ====
section
/-! DEFINITION. The consumer commands READ, PEEK and COMMIT and the consumer wait (spec 41_consumer_commands.md). `ret`
is as in Producer.lean. -/

namespace Sys2Proof.Machine

/-- `CWait()`, steps K1 to K4 (R107). -/
def cwaitStep (after : Label) (onEos : State → Out) (l : Label) (s : State) : Out :=
  match l with
  | .K1 => goto .K2 (s.setC { s.c with cpos := s.cseq.cursor })
  | .K2 =>
    let v := s.sample
    let s' := s.noteSample.setC { s.c with ppos := v }
    if s.c.cpos.toInt < v.toInt then goto .K4 s' else goto .K3 s'
  | .K3 =>
    let s' := s.bumpCwait
    if s.loadDone then onEos s' else goto .K2 s'
  | .K4 => goto after (s.setC { s.c with avail := narrow (s.c.ppos.toInt - s.c.cpos.toInt) })
  | _ => stray

/-- How many bytes a READ of capacity `cap` takes: `min(cap, avail, SIZE - start)` (R108). -/
def readLen (cap avail size : Int) (start : Nat) : Int := min (min cap avail) (size - start)

/-- READ, steps A1, K1 to K4, A3, A4 (R108). -/
def readStep (ret : Response → State → Out) (l : Label) (s : State) : Out :=
  match l with
  | .A1 => if s.c.n.toInt < 0 then ret ⟨.neg, 0, 0, []⟩ s else goto .K1 s
  | .A3 =>
    let start := s.idx s.c.cpos
    let m := readLen s.c.n.toInt s.c.avail.toInt s.size.toInt start
    match memRead s.buf s.sizeNat start m.toNat with
    | .ok out => goto .A4 (s.setC { s.c with start := narrow start, m := narrow m, view := out })
    | .error f => .fault f
  | .A4 => ret ⟨.ok, s.c.m, 0, s.c.view⟩ (s.storeCseq (narrow (s.c.cpos.toInt + s.c.m.toInt)))
  | _ => cwaitStep .A3 (ret ⟨.eos, 0, 0, []⟩) l s

/-- The wrapping copy of PEEK: the tail of `BUF` and then its head go to `TMP` from index 0, and the view is read from
`TMP` (R110). Gives the view and the new `TMP`. -/
def splitCopy (buf tmp : Memory) (size start m : Nat) : Except Fault (List Byte × Memory) :=
  let h := size - start
  match memRead buf size start h with
  | .error f => .error f
  | .ok front =>
    match memWrite tmp size 0 front with
    | .error f => .error f
    | .ok tmp1 =>
      match memRead buf size 0 (m - h) with
      | .error f => .error f
      | .ok back =>
        match memWrite tmp1 size h back with
        | .error f => .error f
        | .ok tmp2 =>
          match memRead tmp2 size 0 m with
          | .error f => .error f
          | .ok view => .ok (view, tmp2)

/-- PEEK, steps B1, K1 to K4, B3 (R110, R111). -/
def peekStep (ret : Response → State → Out) (l : Label) (s : State) : Out :=
  match l with
  | .B1 =>
    match argError s.size.toInt s.c.n.toInt with
    | some e => ret ⟨e, 0, 0, []⟩ s
    | none => goto .K1 s
  | .B3 =>
    let m := min s.c.n.toInt s.c.avail.toInt
    let start := s.idx s.c.cpos
    let st := peekStatus m s.c.n.toInt
    let s' := s.setC { s.c with m := narrow m, start := narrow start }
    if m = 0 then ret ⟨.ok, 0, 0, []⟩ s'
    else if contiguous s.sizeNat start m.toNat then
      match memRead s.buf s.sizeNat start m.toNat with
      | .ok view => ret ⟨st, narrow m, viewAux false start, view⟩ s'
      | .error f => .fault f
    else
      match splitCopy s.buf s.tmp s.sizeNat start m.toNat with
      | .ok (view, tmp) => ret ⟨st, narrow m, viewAux true 0, view⟩ (s'.setTmp tmp)
      | .error f => .fault f
  | _ => cwaitStep .B3 (ret ⟨.eos, 0, 0, []⟩) l s

/-- COMMIT, steps M1 to M3 (R112). -/
def commitStep (ret : Response → State → Out) (l : Label) (s : State) : Out :=
  match l with
  | .M1 =>
    match argError s.size.toInt s.c.n.toInt with
    | some e => ret ⟨e, 0, 0, []⟩ s
    | none => goto .M2 s
  | .M2 =>
    let v := s.sample
    let s' := s.noteSample.setC { s.c with cpos := s.cseq.cursor, ppos := v }
    if s.c.n.toInt ≤ v.toInt - s.cseq.cursor.toInt then goto .M3 s' else ret ⟨.insuf, 0, 0, []⟩ s'
  | .M3 => ret ⟨.ok, s.c.n, 0, []⟩ (s.storeCseq (narrow (s.c.cpos.toInt + s.c.n.toInt)))
  | _ => stray

/-- READ `cap` (R108, R109). -/
def execRead (cap : Word) (s : State) : Out := command (.read cap) .A1 (readStep respond) s

/-- PEEK `n` (R110, R113). -/
def execPeek (n : Word) (s : State) : Out := command (.peek n) .B1 (peekStep respond) s

/-- COMMIT `n` (R112, R114). -/
def execCommit (n : Word) (s : State) : Out := command (.commit n) .M1 (commitStep respond) s

end Sys2Proof.Machine
end

