-- ==== Sys2Proof/Machine/Producer.lean ====
section
/-! DEFINITION. The producer commands WRITE, RSVE and PUBL and the gate algorithm (spec 40_producer_commands.md). Each
`…Step` gives one labelled step; `ret` says what becomes of the command's result, so that the macro commands run the
same steps "without its respond". -/

namespace Sys2Proof.Machine

/-- Would storing `next` break the premise `PSEQ.cursor + SIZE <= 2^63 - 1` (20_memory.md R69, U3)? -/
def overflows (s : State) (next : Int) : Bool := decide (maxInt64 < next + s.size.toInt)

/-- A wait is required: `wrap > gate` or `gate > ppos` (R96). -/
def gateWaits (wrap g ppos : Int) : Bool := decide (g < wrap) || decide (ppos < g)

/-- `Gate(p.n)`, steps G1 to G4 (R96, R97). `after` is the caller's next label when the claim is made; `onEos` is taken
when DONE is observed in the wait. -/
def gateStep (after : Label) (onEos : State → Out) (l : Label) (s : State) : Out :=
  match l with
  | .G1 =>
    let ppos := s.pseq.cursor
    let next := ppos.toInt + s.p.n.toInt
    let wrap := next - s.size.toInt
    if overflows s next then .refused .cursorOverflow
    else
      let s' := s.setP { s.p with ppos := ppos, next := narrow next, wrap := narrow wrap, g := s.pseq.gate }
      if gateWaits wrap s.pseq.gate.toInt ppos.toInt then goto .G2 s' else goto .G4 s'
  | .G2 =>
    let c := s.sample
    let s' := s.noteSample.setP { s.p with c := c }
    if s.p.wrap.toInt ≤ c.toInt then goto .G4 (s'.setGate c) else goto .G3 s'
  | .G3 => if s.loadDone then onEos s else goto .G2 s
  | .G4 => goto after s
  | _ => stray

/-- WRITE, steps W1, G1 to G4, W3, W4 (R92). -/
def writeStep (ret : Response → State → Out) (l : Label) (s : State) : Out :=
  match l with
  | .W1 =>
    match argError s.size.toInt s.p.n.toInt with
    | some e => ret ⟨e, 0, 0, []⟩ s
    | none => goto .G1 s
  | .W3 =>
    match ringCopy s.buf s.sizeNat (s.idx s.p.ppos) s.p.data with
    | .ok m => goto .W4 (s.setBuf m)
    | .error f => .fault f
  | .W4 => ret ⟨.ok, s.p.n, 0, []⟩ (s.storePseq s.p.next)
  | _ => gateStep .W3 (ret ⟨.eos, 0, 0, []⟩) l s

/-- The length RSVE asks for: up to the physical end, at most `RBLK` (R94). -/
def reserveLen (s : State) (pos : Word) : Int := min (s.params.rblk : Int) (s.size.toInt - s.idx pos)

/-- RSVE, steps V1, G1 to G4, V3 (R94). -/
def rsveStep (ret : Response → State → Out) (l : Label) (s : State) : Out :=
  match l with
  | .V1 =>
    goto .G1 (s.setP { s.p with ppos := s.pseq.cursor, n := narrow (reserveLen s s.pseq.cursor) })
  | .V3 => ret ⟨.ok, s.p.n, s.p.ppos, []⟩ (s.setRsv ⟨true, s.p.ppos, s.p.n⟩)
  | _ => gateStep .V3 (ret ⟨.eos, 0, 0, []⟩) l s

/-- PUBL, steps U1, U2 (R95). -/
def publStep (ret : Response → State → Out) (l : Label) (s : State) : Out :=
  match l with
  | .U1 =>
    if overflows s (s.rsv.pos.toInt + s.p.n.toInt) then .refused .cursorOverflow
    else
      match memWrite s.buf s.sizeNat (s.idx s.rsv.pos) s.p.data with
      | .ok m => goto .U2 (s.setBuf m)
      | .error f => .fault f
  | .U2 =>
    ret ⟨.ok, s.p.n, 0, []⟩
      ((s.storePseq (narrow (s.rsv.pos.toInt + s.p.n.toInt))).setRsv { s.rsv with valid := false })
  | _ => stray

/-- WRITE `n` (R92, R93). -/
def execWrite (n : Word) (s : State) : Out := command (.write n) .W1 (writeStep respond) s

/-- RSVE (R94). -/
def execRsve (s : State) : Out := command .rsve .V1 (rsveStep respond) s

/-- PUBL `k` (R95). -/
def execPubl (k : Word) (s : State) : Out := command (.publ k) .U1 (publStep respond) s

end Sys2Proof.Machine
end

