-- ==== Sys2Proof/Machine/Macro.lean ====
section
/-! DEFINITION. The streaming commands READFROM, READFROMB and WRITETO (spec 42_macro_commands.md): fixed expansions into
the steps of the primitive commands, with calls to the external source and sink between them. Not atomic: an inner command
starts as one that is presented there does (R123), so its first step raises the bound of 20_memory.md R59 (DEDUCED, log
entry 9). -/

namespace Sys2Proof.Machine

/-- `(k, d, e) <- SrcRead(max)` (R116): the environment's next answer, which must keep its contract (U8). While no
answer has come the call is outstanding and the port is held: the step changes nothing (log entry 16). -/
def srcRead (max : Int) (next : Label) (s : State) : Out :=
  match s.env.source with
  | [] => .next s
  | a :: rest =>
    if a.fits max then
      goto next
        ((s.setEnv { s.env with source := rest }).setP
          { s.p with n := narrow a.data.length, data := a.data, err := a.err })
    else .refused .sourceBroken

/-- `(k, e) <- SinkWrite(c.view)` (R117), as `srcRead`. The view goes to the sink. -/
def sinkWrite (next : Label) (s : State) : Out :=
  match s.env.sink with
  | [] => .next s
  | a :: rest =>
    if a.fits s.c.view then
      goto next
        ((s.setEnv { s.env with sink := rest, delivered := s.env.delivered ++ [s.c.view] }).setC
          { s.c with k := narrow a.count, err := a.err })
    else .refused .sinkBroken

/-- `p.total <- p.total + k`. -/
def addTotalP (k : Word) (s : State) : State :=
  s.setP { s.p with total := narrow (s.p.total.toInt + k.toInt) }

/-- `c.total <- c.total + k`. -/
def addTotalC (k : Word) (s : State) : State :=
  s.setC { s.c with total := narrow (s.c.total.toInt + k.toInt) }

/-- The end of an iteration of READFROM or READFROMB: go round, or end with the source's indication (F4, E3). -/
def sourceEnd (again : Label) (s : State) : Out :=
  match s.p.err with
  | .none => goto again s
  | .eos => respond ⟨.eos, s.p.total, 0, []⟩ s
  | .ext x => respond ⟨.ext x, s.p.total, 0, []⟩ s

/-- What READFROM does with its inner RSVE's result (F1). -/
def readFromAfterRsve (r : Response) (s : State) : Out :=
  if r.status = .eos then respond ⟨.eos, s.p.total, 0, []⟩ s else goto .F2 s

/-- What READFROM does with its inner PUBL's result (F3). -/
def readFromAfterPubl (r : Response) (s : State) : Out := goto .F4 (addTotalP r.n s)

/-- READFROM, steps F0, F2, F4 and the steps of the inner RSVE and PUBL (R118). -/
def readFromStep (l : Label) (s : State) : Out :=
  match l with
  | .F0 => goto .V1 (s.setP { s.p with total := 0 })
  | .F2 => srcRead s.rsv.len.toInt .U1 s
  | .F4 => sourceEnd .V1 s
  | .V1 => rsveStep readFromAfterRsve .V1 s.raiseFloor
  | .U1 => publStep readFromAfterPubl .U1 s.raiseFloor
  | .U2 => publStep readFromAfterPubl .U2 s
  | _ => rsveStep readFromAfterRsve l s

/-- What READFROMB does with its inner WRITE's result (E2). -/
def readFromBAfterWrite (r : Response) (s : State) : Out :=
  let s' := addTotalP r.n s
  if r.status = .ok then goto .E3 s' else respond ⟨r.status, s'.p.total, 0, []⟩ s'

/-- READFROMB, steps E0, E1, E3 and the steps of the inner WRITE (R119). -/
def readFromBStep (l : Label) (s : State) : Out :=
  match l with
  | .E0 => goto .E1 (s.setP { s.p with total := 0 })
  | .E1 => srcRead s.params.rblk .W1 s
  | .E3 => sourceEnd .E1 s
  | .W1 => writeStep readFromBAfterWrite .W1 s.raiseFloor
  | _ => writeStep readFromBAfterWrite l s

/-- `run PEEK WBLK`: the count latch takes `WBLK` and the inner PEEK begins (T1). -/
def startPeek (s : State) : Out := goto .B1 (s.setC { s.c with n := narrow s.params.wblk })

/-- `run COMMIT k`: the count latch takes `k` and the inner COMMIT begins (T3). -/
def startCommit (k : Word) (s : State) : Out := goto .M1 (s.setC { s.c with n := k })

/-- What WRITETO does with its inner PEEK's result: a short view is delivered like a full one (T1; 91_not_in_source.md
N14). -/
def writeToAfterPeek (r : Response) (s : State) : Out :=
  if r.status = .ok ∨ r.status = .insuf then goto .T2 (s.setC { s.c with m := r.n, view := r.rdata })
  else respond ⟨r.status, s.c.total, 0, []⟩ s

/-- What WRITETO does after the sink's answer (T3). -/
def writeToAfterSink (s : State) : Out :=
  match s.c.err with
  | none => startCommit s.c.m s
  | some x =>
    let s' := addTotalC s.c.k s
    if s.params.commitOnSinkError then startCommit s.c.k s' else respond ⟨.ext x, s'.c.total, 0, []⟩ s'

/-- What WRITETO does after its inner COMMIT, whose result the pseudocode does not look at: it cannot be `INSUF`, because the
bound raised at M1 covers the view (T3; log entry 23). -/
def writeToAfterCommit (_ : Response) (s : State) : Out :=
  match s.c.err with
  | none => startPeek (addTotalC s.c.m s)
  | some x => respond ⟨.ext x, s.c.total, 0, []⟩ s

/-- WRITETO, steps T0, T2, T3 and the steps of the inner PEEK and COMMIT (R120). -/
def writeToStep (l : Label) (s : State) : Out :=
  match l with
  | .T0 => startPeek (s.setC { s.c with total := 0 })
  | .T2 => sinkWrite .T3 s
  | .T3 => writeToAfterSink s
  | .B1 => peekStep writeToAfterPeek .B1 s.raiseFloor
  | .M1 => commitStep writeToAfterCommit .M1 s.raiseFloor
  | .M2 => commitStep writeToAfterCommit .M2 s
  | .M3 => commitStep writeToAfterCommit .M3 s
  | _ => peekStep writeToAfterPeek l s

/-- READFROM (R118, R121). -/
def execReadFrom (s : State) : Out := command .readFrom .F0 readFromStep s

/-- READFROMB (R119). -/
def execReadFromB (s : State) : Out := command .readFromB .E0 readFromBStep s

/-- WRITETO (R120, R122). -/
def execWriteTo (s : State) : Out := command .writeTo .T0 writeToStep s

end Sys2Proof.Machine
end

