-- ==== Sys2Proof/Machine/Dispatch.lean ====
section
/-! DEFINITION. One arm per command: the step `exec i` takes on the port whose step it is. -/

namespace Sys2Proof.Machine

def exec (i : Instr) (s : State) : Host.Outcome State Fault Refusal :=
  match i with
  | .write n => Sys2Proof.Machine.execWrite n s
  | .rsve => Sys2Proof.Machine.execRsve s
  | .publ k => Sys2Proof.Machine.execPubl k s
  | .read cap => Sys2Proof.Machine.execRead cap s
  | .peek n => Sys2Proof.Machine.execPeek n s
  | .commit n => Sys2Proof.Machine.execCommit n s
  | .readFrom => Sys2Proof.Machine.execReadFrom s
  | .readFromB => Sys2Proof.Machine.execReadFromB s
  | .writeTo => Sys2Proof.Machine.execWriteTo s
  | .close => Sys2Proof.Machine.execClose s
  | .len => Sys2Proof.Machine.execLen s
  | .ident => Sys2Proof.Machine.execIdent s

end Sys2Proof.Machine
end

