-- ==== Sys2Proof/Machine/Step.lean ====
section
/-! DEFINITION. One step of the machine: the next entry of the environment's schedule moves one agent by one labelled
step, or resets the block. -/

namespace Sys2Proof.Machine

/-- One step of the agent of port `a`. In the middle of a command its phase says what comes next (10_state.md R33); at
IDLE the environment's next pair is presented and decoded (30_encoding.md R71, R86). With no pair to present the agent
has no enabled step and nothing changes (log entry 5). -/
def stepPort (a : Port) (s : State) : Host.Outcome State Fault Refusal :=
  match (s.port a).phase with
  | .run i _ => exec i s
  | .idle =>
    match (s.port a).script with
    | [] => .next s
    | pr :: rest =>
      match decode pr.cmd with
      | .instr i => exec i (present pr rest a s)
      | .illegal _ => respondIllegal (present pr rest a s)

/-- The state in which the agent of port `a` takes its step, the rest of the schedule still to come. -/
def State.atTurn (s : State) (a : Port) (lag : Nat) (rest : List Turn) : State :=
  { s with turn := a, lag := lag, env := { s.env with sched := rest } }

/-- One step of the machine. When the schedule is used up no agent moves and nothing changes (log entry 5). -/
def step (s : State) : Host.Outcome State Fault Refusal :=
  match s.env.sched with
  | [] => .next s
  | .run a lag :: rest => stepPort a (s.atTurn a lag rest)
  | .rst cfgSize cfgId :: rest =>
    .next (resetWith cfgSize cfgId { s with env := { s.env with sched := rest } })

/-- The port a command word is presented on: the C-port for the commands only it accepts, else the P-port. -/
def portOfWord (w : BitVec 68) : Port :=
  match decode w with
  | .instr i => if accepts .P i then .P else .C
  | .illegal _ => .P

/-- The payload presented with a word: as many zero bytes as its count asks for (30_encoding.md R77). -/
def payloadOfWord (size : Word) (w : BitVec 68) : List Byte :=
  match decode w with
  | .instr (.write n) => if 0 ≤ n.toInt ∧ n.toInt ≤ size.toInt then List.replicate n.toInt.toNat 0 else []
  | .instr (.publ k) => if 0 ≤ k.toInt ∧ k.toInt ≤ size.toInt then List.replicate k.toInt.toNat 0 else []
  | _ => []

/-- `s` with the table word `w` presented so that the very next step runs it: its port is IDLE, the pair heads the
port's script, and the schedule gives that port the next step (log entry 6). -/
def State.withFetchWord (s : State) (nbits w : Nat) : State :=
  let cmd := BitVec.ofNat 68 (w % 2 ^ nbits)
  let a := portOfWord cmd
  let x := s.port a
  { s.setPort a { x with phase := .idle, script := ⟨cmd, payloadOfWord s.size cmd⟩ :: x.script } with
    env := { s.env with sched := .run a 0 :: s.env.sched } }

end Sys2Proof.Machine
end

