-- ==== Sys2Proof/Machine/Runs.lean ====
section
/-! DEFINITION. Infinite runs and the three assumptions of spec 20_memory.md R67 on which the liveness of the block rests.
They are premises on the environment and never steps (R67; 70_reset_and_hazards.md R162): a claim that a wait ends
takes `Fair` as a hypothesis. -/

namespace Sys2Proof.Machine

/-- `t` is `s` after the environment has handed over more of its inputs: schedule, scripts and answers only grow at
their far end (10_state.md R14). -/
def State.Supplied (s t : State) : Prop :=
  ∃ sched source sink ps cs,
    t =
      { s with
        env :=
          { s.env with
            sched := s.env.sched ++ sched, source := s.env.source ++ source, sink := s.env.sink ++ sink },
        pPort := { s.pPort with script := s.pPort.script ++ ps },
        cPort := { s.cPort with script := s.cPort.script ++ cs } }

/-- The agent the next step moves, if the next step is no reset. -/
def State.mover (s : State) : Option Port :=
  match s.env.sched with
  | .run a _ :: _ => some a
  | _ => none

/-- A run: each state but for the inputs handed over between is a next state of the one before. An agent moves at each step
and no reset comes. -/
structure IsRun (u : Nat → State) : Prop where
  moves : ∀ n, (u n).mover.isSome = true
  steps : ∀ n, ∃ t, step (u n) = .next t ∧ t.Supplied (u (n + 1))

/-- Agent `a` has a step to take: a command in execution, or one to be presented (10_state.md R33; 30_encoding.md R71). -/
def State.canMove (s : State) (a : Port) : Prop := (s.port a).phase ≠ .idle ∨ (s.port a).script ≠ []

/-- The labels whose step makes a cross-port cursor load (20_memory.md R57). -/
def loadsCursor : Label → Bool
  | .G2 => true
  | .K2 => true
  | .M2 => true
  | .L2 => true
  | _ => false

/-- The value the next step loads from the other agent's cursor, when it is a step of agent `a` that makes such a load. -/
def State.loaded (s : State) (a : Port) : Option Word :=
  match s.env.sched with
  | .run b lag :: rest =>
    match (s.port a).phase with
    | .run _ l => if b = a ∧ loadsCursor l = true then some (s.atTurn b lag rest).sample else none
    | .idle => none
  | _ => none

/-- The fairness premises (a) to (c) of R67 on a run. `DONE` needs no clause in (b): a load of it returns the current value
(log entry 29). -/
structure Fair (u : Nat → State) : Prop where
  /-- (a) "each agent that has an enabled step eventually takes it". -/
  agents : ∀ a n, (u n).canMove a → ∃ m, n ≤ m ∧ (u m).mover = some a
  /-- (b) "a value stored to a cursor ... is eventually returned by the other agent's repeated loads", or a later one. -/
  loads : ∀ a n, (∀ k, ∃ m, k ≤ m ∧ ((u m).loaded a).isSome = true) →
    ∃ m v, n ≤ m ∧ (u m).loaded a = some v ∧ ((u n).otherCursor a).toInt ≤ v.toInt
  /-- (c) "the external source and sink eventually answer": the source. -/
  source : ∀ n, (u n).pPort.phase = .run .readFrom .F2 ∨ (u n).pPort.phase = .run .readFromB .E1 →
    ∃ m, n ≤ m ∧ (u m).env.source ≠ []
  /-- (c): the sink. -/
  sink : ∀ n, (u n).cPort.phase = .run .writeTo .T2 → ∃ m, n ≤ m ∧ (u m).env.sink ≠ []

end Sys2Proof.Machine
end

