-- ==== Sys2Proof/Machine/Script.lean ====
section
/-! DEFINITION. Scripts and schedules (spec 30_encoding.md R87, R89): a script line as data, the payload expressions of
R87, and a command run from its presentation to its response while the other agent takes no step. The textual form of
R87 is not read or printed (log entry 24). -/

namespace Sys2Proof.Machine

/-- `rep(b, n)`: `n` copies of one byte (R87). -/
def rep (b : Byte) (n : Nat) : List Byte := List.replicate n b

/-- `ramp(a, n)`: the bytes `(a + i) mod 256` for `0 <= i < n` (R87). -/
def ramp (a n : Nat) : List Byte := (List.range n).map (fun i => BitVec.ofNat 8 (a + i))

/-- One line of a script: a port, a command and its payload (R87). -/
structure ScriptLine where
  port : Port
  instr : Instr
  payload : List Byte := []
  deriving DecidableEq, Repr

/-- The pair a line presents: the word `{OP, CNT}` and the payload (R72, R87). -/
def ScriptLine.presented (ln : ScriptLine) : Presented := ⟨encode ln.instr, ln.payload⟩

/-- The steps of one command taken one after another by its agent, the other agent taking none, until the port is IDLE
again or `fuel` steps are used up. -/
def execAlone : Nat → Instr → State → Out
  | 0, _, s => .next s
  | fuel + 1, i, s =>
    match exec i s with
    | .next t => if t.phase = .idle then .next t else execAlone fuel i t
    | .fault f => .fault f
    | .refused r => .refused r

/-- A line run to its response, or until `fuel` steps show it waiting (R89). -/
def runLine (fuel : Nat) (ln : ScriptLine) (s : State) : Out :=
  let s' := { s with turn := ln.port, lag := 0 }
  execAlone fuel ln.instr (present ln.presented (s.port ln.port).script ln.port s')

/-- The lines of a script in their order (R89). -/
def runScript (fuel : Nat) : List ScriptLine → State → Out
  | [], s => .next s
  | ln :: rest, s =>
    match runLine fuel ln s with
    | .next t => runScript fuel rest t
    | .fault f => .fault f
    | .refused r => .refused r

end Sys2Proof.Machine
end

