-- ==== Sys2Proof/Safety.lean ====
section
/-! DEFINITION. What counts as a sound state of RB2 in the terms the claims use: the governing invariant (spec
10_state.md R36), the gate invariant (R37), the reservation invariant (R32), the legal sizes (R15, R39), the written
window (20_memory.md R58), the facts that hold at each step label, the placement duty (R23), and the states the block
can reach. -/

namespace Sys2Proof.Machine

/-! ### Registers and storage -/

/-- `SIZE` is a power of two from `2 * RBLK` to `2^62` and `MASK = SIZE - 1` (R15, R39, 92_eei_decisions.md D38). -/
def State.SizeInv (s : State) : Prop :=
  (∃ k, k ≤ 62 ∧ s.size.toNat = 2 ^ k ∧ s.mask.toNat = 2 ^ k - 1) ∧ s.params.minSize ≤ s.size.toNat

/-- R36: `CSEQ.cursor <= PSEQ.cursor <= CSEQ.cursor + SIZE`, with cursors that count from 0 and stay inside the premise of
20_memory.md R69. -/
def State.RingInv (s : State) : Prop :=
  0 ≤ s.cseq.cursor.toInt ∧ s.cseq.cursor.toInt ≤ s.pseq.cursor.toInt ∧
    s.pseq.cursor.toInt ≤ s.cseq.cursor.toInt + s.size.toInt ∧ s.pseq.cursor.toInt + s.size.toInt ≤ maxInt64

/-- R37: `PSEQ.cursor - SIZE <= PSEQ.gate <= CSEQ.cursor`, and the gate is never negative (R39). -/
def State.GateInv (s : State) : Prop :=
  0 ≤ s.pseq.gate.toInt ∧ s.pseq.gate.toInt ≤ s.cseq.cursor.toInt ∧
    s.pseq.cursor.toInt - s.size.toInt ≤ s.pseq.gate.toInt

/-- R32: while a reservation stands, `RSV.pos = PSEQ.cursor`, `1 <= RSV.len <= RBLK` and `idx(RSV.pos) + RSV.len <= SIZE`;
and its positions are free (40_producer_commands.md R99). -/
def State.RsvInv (s : State) : Prop :=
  s.rsv.valid = true →
    s.rsv.pos = s.pseq.cursor ∧ 1 ≤ s.rsv.len.toInt ∧ s.rsv.len.toInt ≤ s.params.rblk ∧
      (s.idx s.rsv.pos : Int) + s.rsv.len.toInt ≤ s.size.toInt ∧
      s.rsv.pos.toInt + s.rsv.len.toInt - s.size.toInt ≤ s.pseq.gate.toInt ∧
      s.rsv.pos.toInt + s.rsv.len.toInt + s.size.toInt ≤ maxInt64

/-- Both byte spaces are canonical and hold nothing outside `0 .. SIZE - 1` (20_memory.md R46). -/
def State.SpaceInv (s : State) : Prop :=
  s.buf.wf ∧ s.tmp.wf ∧ (∀ x ∈ s.buf, x.1 < s.sizeNat) ∧ ∀ x ∈ s.tmp, x.1 < s.sizeNat

/-- Every published and not yet consumed position holds a byte (10_state.md R16, 20_memory.md R58). -/
def State.WindowInv (s : State) : Prop :=
  ∀ q : Int, s.cseq.cursor.toInt ≤ q → q < s.pseq.cursor.toInt → (s.at q).isSome = true

/-- The bound of a lagging sample never passes the cursor it bounds (20_memory.md R59). -/
def State.FloorInv (s : State) : Prop :=
  0 ≤ s.pPort.floor.toInt ∧ s.pPort.floor.toInt ≤ s.cseq.cursor.toInt ∧
    0 ≤ s.cPort.floor.toInt ∧ s.cPort.floor.toInt ≤ s.pseq.cursor.toInt

/-! ### What holds at each step label -/

/-- The byte string `v` lies in `BUF` at the positions from `pos` on. -/
def State.Holds (s : State) (pos : Int) (v : List Byte) : Prop :=
  ∀ j : Nat, j < v.length → s.at (pos + j) = v[j]?

/-- WRITE, or the WRITE inside READFROMB, is the command in execution. -/
def isWriting : Instr → Bool
  | .write _ => true
  | .rsve => false
  | .publ _ => false
  | .read _ => false
  | .peek _ => false
  | .commit _ => false
  | .readFrom => false
  | .readFromB => true
  | .writeTo => false
  | .close => false
  | .len => false
  | .ident => false

/-- RSVE, or the RSVE inside READFROM, is the command in execution. -/
def isReserving : Instr → Bool
  | .write _ => false
  | .rsve => true
  | .publ _ => false
  | .read _ => false
  | .peek _ => false
  | .commit _ => false
  | .readFrom => true
  | .readFromB => false
  | .writeTo => false
  | .close => false
  | .len => false
  | .ident => false

/-- The operands of a running gate: a payload of `p.n` bytes for WRITE, a run up to the physical end for RSVE; no
reservation stands. -/
def State.GateOperands (s : State) (i : Instr) : Prop :=
  s.rsv.valid = false ∧ 0 ≤ s.p.n.toInt ∧ s.p.n.toInt ≤ s.size.toInt ∧
    ((isWriting i = true ∧ (s.p.data.length : Int) = s.p.n.toInt) ∨
      (isReserving i = true ∧ s.p.ppos = s.pseq.cursor ∧ 1 ≤ s.p.n.toInt ∧ s.p.n.toInt ≤ s.params.rblk ∧
        (s.idx s.p.ppos : Int) + s.p.n.toInt ≤ s.size.toInt))

/-- The latches of the gate after G1 (R96). -/
def State.GateLatches (s : State) : Prop :=
  s.p.ppos = s.pseq.cursor ∧ s.p.next.toInt = s.p.ppos.toInt + s.p.n.toInt ∧
    s.p.wrap.toInt = s.p.next.toInt - s.size.toInt ∧ s.p.next.toInt + s.size.toInt ≤ maxInt64

/-- A claim is held: its positions are free by the gate (R98, R99). -/
def State.Claimed (s : State) : Prop := s.GateLatches ∧ s.p.wrap.toInt ≤ s.pseq.gate.toInt

/-- An inner or outer PUBL is between its steps: a reservation stands and the payload fits it. -/
def State.Publishing (s : State) : Prop :=
  s.rsv.valid = true ∧ (s.p.data.length : Int) = s.p.n.toInt ∧ s.p.n.toInt ≤ s.rsv.len.toInt

/-- What holds when agent P's phase is `(i, l)`. -/
def State.PLabelInv (s : State) (i : Instr) : Label → Prop
  | .W1 => i = .readFromB ∧ s.rsv.valid = false ∧ s.p.n.toInt ≤ s.params.rblk ∧ (s.p.data.length : Int) = s.p.n.toInt
  | .G1 => s.GateOperands i
  | .G2 => s.GateOperands i ∧ s.GateLatches
  | .G3 => s.GateOperands i ∧ s.GateLatches
  | .G4 => s.GateOperands i ∧ s.Claimed
  | .W3 => isWriting i = true ∧ s.GateOperands i ∧ s.Claimed
  | .W4 => isWriting i = true ∧ s.GateOperands i ∧ s.Claimed ∧ s.Holds s.p.ppos.toInt s.p.data
  | .V1 => i = .readFrom ∧ s.rsv.valid = false
  | .V3 => isReserving i = true ∧ s.GateOperands i ∧ s.Claimed
  | .F2 => i = .readFrom ∧ s.rsv.valid = true
  | .U1 => i = .readFrom ∧ s.Publishing
  | .U2 => (i = .readFrom ∨ ∃ k, i = .publ k) ∧ s.Publishing ∧ s.Holds s.rsv.pos.toInt s.p.data
  | .F4 => i = .readFrom ∧ s.rsv.valid = false
  | .E1 => i = .readFromB ∧ s.rsv.valid = false
  | .E3 => i = .readFromB ∧ s.rsv.valid = false
  | .L2 => i = .len ∧ s.p.ppos = s.pseq.cursor
  | _ => False

/-- READ, PEEK or the PEEK inside WRITETO is in its wait, with an operand that passed its test. -/
def State.WaitOperands (s : State) (i : Instr) : Prop :=
  0 ≤ s.c.n.toInt ∧
    ((∃ n, i = .read n) ∨ ((∃ n, i = .peek n) ∧ s.c.n.toInt ≤ s.size.toInt) ∨
      (i = .writeTo ∧ s.c.n.toInt = s.params.wblk))

/-- A sample that showed data: `cpos < ppos <= PSEQ.cursor` (R107). -/
def State.DataSampled (s : State) : Prop :=
  s.c.cpos = s.cseq.cursor ∧ s.c.cpos.toInt < s.c.ppos.toInt ∧ s.c.ppos.toInt ≤ s.pseq.cursor.toInt

/-- The wait has ended with `DATA(cpos, avail)` (R107). -/
def State.DataHeld (s : State) : Prop :=
  s.DataSampled ∧ s.c.avail.toInt = s.c.ppos.toInt - s.c.cpos.toInt

/-- WRITETO holds a view of `m` bytes that starts at the consumer cursor (42_macro_commands.md R120). -/
def State.ViewHeld (s : State) : Prop :=
  (s.c.view.length : Int) = s.c.m.toInt ∧ 1 ≤ s.c.m.toInt ∧
    s.cseq.cursor.toInt + s.c.m.toInt ≤ s.pseq.cursor.toInt ∧ s.Holds s.cseq.cursor.toInt s.c.view

/-- What holds when agent C's phase is `(i, l)`. -/
def State.CLabelInv (s : State) (i : Instr) : Label → Prop
  | .K1 => s.WaitOperands i
  | .K2 => s.WaitOperands i ∧ s.c.cpos = s.cseq.cursor
  | .K3 => s.WaitOperands i ∧ s.c.cpos = s.cseq.cursor
  | .K4 => s.WaitOperands i ∧ s.DataSampled
  | .A3 => (∃ n, i = .read n) ∧ 0 ≤ s.c.n.toInt ∧ s.DataHeld
  | .A4 =>
    (∃ n, i = .read n) ∧ s.c.cpos = s.cseq.cursor ∧ 0 ≤ s.c.m.toInt ∧
      s.c.cpos.toInt + s.c.m.toInt ≤ s.pseq.cursor.toInt ∧ (s.c.view.length : Int) = s.c.m.toInt ∧
      s.Holds s.c.cpos.toInt s.c.view
  | .B1 => i = .writeTo ∧ s.c.n.toInt = s.params.wblk
  | .B3 => s.WaitOperands i ∧ (∀ n, i ≠ .read n) ∧ s.DataHeld
  | .T2 => i = .writeTo ∧ s.ViewHeld
  | .T3 => i = .writeTo ∧ s.ViewHeld ∧ 0 ≤ s.c.k.toInt ∧ s.c.k.toInt ≤ s.c.m.toInt
  | .M1 => i = .writeTo ∧ 0 ≤ s.c.n.toInt ∧ s.cseq.cursor.toInt + s.c.n.toInt ≤ s.pseq.cursor.toInt
  | .M2 =>
    ((i = .writeTo ∧ s.cseq.cursor.toInt + s.c.n.toInt ≤ s.cPort.floor.toInt) ∨ ∃ n, i = .commit n) ∧ 0 ≤ s.c.n.toInt
  | .M3 =>
    (i = .writeTo ∨ ∃ n, i = .commit n) ∧ s.c.cpos = s.cseq.cursor ∧ 0 ≤ s.c.n.toInt ∧
      s.c.cpos.toInt + s.c.n.toInt ≤ s.pseq.cursor.toInt
  | .L2 => i = .len ∧ s.c.cpos = s.cseq.cursor
  | _ => False

/-- Agent P's phase is one it can be in, and what holds there holds (10_state.md R33). -/
def State.PPhaseInv (s : State) : Prop :=
  match s.pPort.phase with
  | .idle => True
  | .run i l => accepts .P i = true ∧ s.PLabelInv i l

/-- Agent C's phase is one it can be in, and what holds there holds (R33). -/
def State.CPhaseInv (s : State) : Prop :=
  match s.cPort.phase with
  | .idle => True
  | .run i l => accepts .C i = true ∧ s.CLabelInv i l

/-- The invariant of a configured block. -/
structure State.ReadyInv (s : State) : Prop where
  size : s.SizeInv
  ring : s.RingInv
  gate : s.GateInv
  rsv : s.RsvInv
  spaces : s.SpaceInv
  window : s.WindowInv
  floors : s.FloorInv
  pPhase : s.PPhaseInv
  cPhase : s.CPhaseInv

/-- The invariant every step keeps. Before a reset has succeeded there is no buffer and both ports are IDLE
(70_reset_and_hazards.md R150). -/
structure State.Inv (s : State) : Prop where
  params : s.params.ok = true
  ready : s.cfgState = .ready → s.ReadyInv
  failed : s.cfgState = .cfgFail → s.pPort.phase = .idle ∧ s.cPort.phase = .idle

/-! ### Companions of the invariant -/

/-- While a command with operands is in execution its latches hold them: the count, and for WRITE and PUBL the payload
the port took (10_state.md R34, 30_encoding.md R77). -/
def State.OperandInv (s : State) : Prop :=
  (∀ n l, s.pPort.phase = .run (.write n) l → s.p.n = n ∧ s.p.data = takenPayload s.size n s.pPort.payload) ∧
    (∀ k l, s.pPort.phase = .run (.publ k) l → s.p.n = k ∧ s.p.data = takenPayload s.size k s.pPort.payload) ∧
    (∀ n l, s.cPort.phase = .run (.read n) l → s.c.n = n) ∧
    (∀ n l, s.cPort.phase = .run (.peek n) l → s.c.n = n) ∧
    (∀ n l, s.cPort.phase = .run (.commit n) l → s.c.n = n)

/-- An external code that is latched lies in `16 .. 255` (42_macro_commands.md R116, R117). -/
def State.ExtInv (s : State) : Prop :=
  (∀ x, s.p.err = .ext x → 16 ≤ x.toNat) ∧ ∀ x, s.c.err = some x → 16 ≤ x.toNat

/-- The cursors are so far from the premise of 20_memory.md R69 that no claim of up to `SIZE` bytes can break it. -/
def State.FarFromHorizon (s : State) : Prop := s.pseq.cursor.toInt + 2 * s.size.toInt ≤ maxInt64

/-- The external source and sink keep their contracts in the call that is outstanding, if one is (R116, R117). -/
def State.ContractsKept (s : State) : Prop :=
  (∀ a rest, s.env.source = a :: rest → s.phase = .run .readFrom .F2 → a.fits s.rsv.len.toInt = true) ∧
    (∀ a rest, s.env.source = a :: rest → s.phase = .run .readFromB .E1 → a.fits s.params.rblk = true) ∧
    ∀ a rest, s.env.sink = a :: rest → s.phase = .run .writeTo .T2 → a.fits s.c.view = true

/-! ### What a step may touch -/

/-- The agent other than `a`. -/
def otherPort : Port → Port
  | .P => .C
  | .C => .P

/-- The commands only the P-port accepts (30_encoding.md R76). -/
def isProducer : Instr → Bool
  | .write _ => true
  | .rsve => true
  | .publ _ => true
  | .read _ => false
  | .peek _ => false
  | .commit _ => false
  | .readFrom => true
  | .readFromB => true
  | .writeTo => false
  | .close => false
  | .len => false
  | .ident => false

/-- The commands only the C-port accepts (R76). -/
def isConsumer : Instr → Bool
  | .write _ => false
  | .rsve => false
  | .publ _ => false
  | .read _ => true
  | .peek _ => true
  | .commit _ => true
  | .readFrom => false
  | .readFromB => false
  | .writeTo => true
  | .close => false
  | .len => false
  | .ident => false

/-- A port that has just answered `r`: IDLE, the response handed back (30_encoding.md R82). -/
def PortState.answered (x : PortState) (r : Response) : PortState :=
  { x with phase := .idle, responses := x.responses ++ [r] }

/-- No register other than a latch, a port's or the environment's differs, and no byte of `BUF` or `TMP` (60_exceptions.md
R135, "none"). -/
structure State.SameRegisters (s t : State) : Prop where
  pseq : t.pseq = s.pseq
  cseq : t.cseq = s.cseq
  done : t.done = s.done
  size : t.size = s.size
  mask : t.mask = s.mask
  ident : t.ident = s.ident
  cwait : t.cwait = s.cwait
  cfgState : t.cfgState = s.cfgState
  cfgErr : t.cfgErr = s.cfgErr
  hint : t.hint = s.hint
  rsv : t.rsv = s.rsv
  buf : t.buf = s.buf
  tmp : t.tmp = s.tmp

/-- The run of `BUF` cells the next step of command `i` stores: the index of its first cell and its bytes (40_producer_commands.md
R92 W3, R95 U1). -/
def State.bufStore (i : Instr) (s : State) : Option (Nat × List Byte) :=
  match s.phase with
  | .run _ .W3 => some (s.idx s.p.ppos, s.p.data)
  | .run _ .U1 => some (s.idx s.rsv.pos, s.p.data)
  | .run _ _ => none
  | .idle =>
    match i with
    | .publ k =>
      if legal s.turn (.publ k) s then some (s.idx s.rsv.pos, takenPayload s.size k s.pPort.payload) else none
    | _ => none

/-- How many cells of `TMP`, from index 0, the next step of a command stores: `m` when the region PEEK looks at wraps
(41_consumer_commands.md R110 B3). -/
def State.tmpStore (s : State) : Nat :=
  match s.phase with
  | .run _ .B3 =>
    let m := (min s.c.n.toInt s.c.avail.toInt).toNat
    if contiguous s.sizeNat (s.idx s.c.cpos) m then 0 else m
  | _ => 0

/-- A producer command is in its wait and cannot leave it at the current cursors (20_memory.md R67). -/
def State.producerBlocked (s : State) : Prop :=
  (∃ i, s.pPort.phase = .run i .G2 ∨ s.pPort.phase = .run i .G3) ∧ s.cseq.cursor.toInt < s.p.wrap.toInt

/-- A consumer command is in its wait and cannot leave it at the current cursors (R67). -/
def State.consumerBlocked (s : State) : Prop :=
  (∃ i, s.cPort.phase = .run i .K2 ∨ s.cPort.phase = .run i .K3) ∧ s.pseq.cursor.toInt ≤ s.c.cpos.toInt

/-! ### Reachable states -/

/-- The states the block reaches: after a reset with any straps, any parameters the spec admits and any inputs of the
environment, and from there by steps (R13, R14). -/
inductive Reachable : State → Prop
  /-- A reset, with whatever the environment has ready. -/
  | boot (q : Params) (cfgSize cfgId : Word) (e : Env) (ps cs : List Presented) (hq : q.ok = true) :
      Reachable
        (resetWith cfgSize cfgId
          { State.reset with
            params := q, env := e,
            pPort := { PortState.reset with script := ps }, cPort := { PortState.reset with script := cs } })
  /-- One step. -/
  | next (s t : State) (hs : Reachable s) (h : step s = .next t) : Reachable t

/-! ### The stream -/

/-- The bytes at the positions `[a, b)`. -/
def State.bytesAt (s : State) (a b : Int) : List (Option Byte) :=
  (List.range (b - a).toNat).map (fun j => s.at (a + j))

/-- The bytes written and not yet consumed, oldest first (20_memory.md R53). -/
def State.unread (s : State) : List (Option Byte) := s.bytesAt s.cseq.cursor.toInt s.pseq.cursor.toInt

/-- Is the next scheduled entry a reset? -/
def State.resetNext (s : State) : Bool :=
  match s.env.sched with
  | .rst _ _ :: _ => true
  | _ => false

/-- The bytes the next step publishes: the payload of a WRITE or PUBL at its publishing step (W4, U2), none
otherwise. -/
def State.publishes (s : State) : List Byte :=
  match s.env.sched with
  | .run .P _ :: _ =>
    match s.pPort.phase with
    | .run _ .W4 => s.p.data
    | .run _ .U2 => s.p.data
    | _ => []
  | _ => []

/-- The sizes of the views WRITETO delivers from a closed ring of `len` bytes: `WBLK` each, the last one what is left
(42_macro_commands.md R120). -/
def viewSizes (wblk len : Nat) : List Nat :=
  (List.range ((len + wblk - 1) / wblk)).map (fun j => min wblk (len - j * wblk))

/-! ### The lines -/

/-- R23: the byte addresses of the two cursors differ by at least `LINE_BYTES`. -/
def placed (q : Params) (pAddr cAddr : Nat) : Bool :=
  decide (pAddr + q.lineBytes ≤ cAddr) || decide (cAddr + q.lineBytes ≤ pAddr)

/-- A configured block's two lines have the dead words that fill `LINE_BYTES` (R20). -/
def State.LineInv (s : State) : Prop :=
  s.cfgState = .ready → s.pseq.pad.length = s.params.padWords ∧ s.cseq.pad.length = s.params.padWords

end Sys2Proof.Machine
end

