-- ==== Sys2Proof/Certificates/Slice0/Obligations.lean ====
section
/-! DEFINITION. The statements about RB2, one proposition each. OBLIGATIONS.json says which rule each comes from. Where a
statement speaks of one command run to its response while the other agent takes no step it says so with `execAlone`;
a labelled step of a command is one `exec` (00_scope.md R10), and the step counts given to `execAlone` are the model's
grain: acceptance merges with the first labelled step (log entry 7, DEDUCED) and a copy of bytes is one step (log entry 8,
DEDUCED). -/

section

open Sys2Proof Sys2Proof.Machine

/-! ### Encoding -/

/-- 30_encoding.md R90: the worked encodings. `0xC_0000000000000001` is illegal on both ports and
`0x1_0000000000000005` on the C-port, in every state. -/
def Obligations.WorkedEncodings : Prop :=
  ScriptLine.presented ⟨.P, .write 5, [0x68, 0x65, 0x6C, 0x6C, 0x6F]⟩ =
      ⟨0x10000000000000005, [0x68, 0x65, 0x6C, 0x6C, 0x6F]⟩ ∧
    decode 0x10000000000000005 = .instr (.write 5) ∧
    decode 0x40000000000000100 = .instr (.read 256) ∧
    decode 0x50000000000000800 = .instr (.peek 2048) ∧
    decode 0x6FFFFFFFFFFFFFFFF = .instr (.commit (-1)) ∧
    decode 0xC0000000000000000 = .instr .close ∧
    decode 0x20000000000000000 = .instr .rsve ∧
    (∀ a (s : State), decodeAt a 0xC0000000000000001 s = none) ∧
    (∀ s : State, decodeAt .C 0x10000000000000005 s = none) ∧
    Response.rsp ⟨.ok, 256, 0, []⟩ = 0x0000000000000001000000000000000000

/-- 30_encoding.md R72, R74, R75, R80: decode and encode are inverse to each other, every bit of the count included. -/
def Obligations.DecodeEncodeRoundTrip : Prop :=
  (∀ i, decode (encode i) = .instr i) ∧ ∀ w i, decode w = .instr i → encode i = w

/-- 30_encoding.md R79, R80, R81: what the 68-bit words are: a reserved opcode, a no-operand opcode with a count, or the
command of the opcode with the count the word carries. -/
def Obligations.EveryWordClassified : Prop :=
  ∀ w : BitVec 68,
    ((opField w = 0x0 ∨ opField w = 0x7 ∨ opField w = 0xB ∨ opField w = 0xF) ∧
        decode w = .illegal (.reservedOpcode (opField w))) ∨
      ((opField w = 0x2 ∨ opField w = 0x8 ∨ opField w = 0x9 ∨ opField w = 0xA ∨ opField w = 0xC ∨ opField w = 0xD ∨
          opField w = 0xE) ∧
        cntField w ≠ 0 ∧ decode w = .illegal (.countNotZero (opField w))) ∨
      ∃ i, decode w = .instr i ∧ opcode i = opField w ∧ i.count = cntField w

/-- 30_encoding.md R86: decoding in its six cases, the command otherwise, and the answer to an illegal word: `ILLEGAL`
at once, no register, `BUF` or `TMP` changed, the port still IDLE. (The inputs `CMD` and `PAYLOAD` show the pair.) -/
def Obligations.DecodeIsTotal : Prop :=
  (∀ a w (s : State),
      decodeAt a w s = none ↔
        s.cfgState = .cfgFail ∨
          (opField w = 0x0 ∨ opField w = 0x7 ∨ opField w = 0xB ∨ opField w = 0xF) ∨
          (a = .P ∧ (opField w = 0x4 ∨ opField w = 0x5 ∨ opField w = 0x6 ∨ opField w = 0xA)) ∨
          (a = .C ∧
            (opField w = 0x1 ∨ opField w = 0x2 ∨ opField w = 0x3 ∨ opField w = 0x8 ∨ opField w = 0x9)) ∨
          ((opField w = 0x2 ∨ opField w = 0x8 ∨ opField w = 0x9 ∨ opField w = 0xA ∨ opField w = 0xC ∨
              opField w = 0xD ∨ opField w = 0xE) ∧ cntField w ≠ 0) ∨
          (a = .P ∧ s.rsv.valid = true ∧
            (opField w = 0x1 ∨ opField w = 0x2 ∨ opField w = 0x8 ∨ opField w = 0x9)) ∨
          (a = .P ∧ opField w = 0x3 ∧
            (s.rsv.valid = false ∨ (cntField w).toInt < 0 ∨ s.rsv.len.toInt < (cntField w).toInt))) ∧
    (∀ a w (s : State) i, decodeAt a w s = some i → opcode i = opField w ∧ i.count = cntField w) ∧
    ∀ (s : State) a lag rest pr prs,
      s.env.sched = .run a lag :: rest → (s.port a).phase = .idle → (s.port a).script = pr :: prs →
        decodeAt a pr.cmd s = none →
        step s =
          .next
            ((s.atTurn a lag rest).setPort a
              { s.port a with
                cmd := pr.cmd, payload := pr.payload, script := prs,
                responses := (s.port a).responses ++ [⟨.illegal, 0, 0, []⟩] })

/-! ### The step -/

/-- A step runs the decoded command. At IDLE the scheduled port is presented its next pair and `exec` runs what the word
decodes to; in the middle of a command `exec` runs that command; with nothing presented, or nothing scheduled, nothing
moves (log entries 5 and 7). -/
def Obligations.StepRunsTheDecodedCommand : Prop :=
  ∀ s : State,
    (∀ a lag rest pr prs i,
      s.env.sched = .run a lag :: rest → (s.port a).phase = .idle → (s.port a).script = pr :: prs →
        decode pr.cmd = .instr i → step s = exec i (present pr prs a (s.atTurn a lag rest))) ∧
    (∀ a lag rest i l,
      s.env.sched = .run a lag :: rest → (s.port a).phase = .run i l → step s = exec i (s.atTurn a lag rest)) ∧
    (∀ a lag rest,
      s.env.sched = .run a lag :: rest → (s.port a).phase = .idle → (s.port a).script = [] →
        step s = .next (s.atTurn a lag rest)) ∧
    (∀ z id rest,
      s.env.sched = .rst z id :: rest →
        step s = .next (resetWith z id { s with env := { s.env with sched := rest } })) ∧
    (s.env.sched = [] → step s = .next s)

/-- 30_encoding.md R71, R82; 40_producer_commands.md R91; 10_state.md R33: a step of a command either leaves the port in
that command with no response, or ends it with exactly one response and the port IDLE. -/
def Obligations.EveryCommandAnswersOnce : Prop :=
  ∀ i (s t : State), exec i s = .next t →
    ((∃ l, t.phase = .run i l) ∧ (t.port t.turn).responses = (s.port s.turn).responses) ∨
      (t.phase = .idle ∧ ∃ r, (t.port t.turn).responses = (s.port s.turn).responses ++ [r])

/-- 30_encoding.md R83; 60_exceptions.md R134: a response never carries `NOTPOW2` or `TOOSMALL`, and an external code is
one of 16 to 255. The latched codes stay in that range too. (Over a reset that rests on the model's choice of what the
latches hold after it, which R40 leaves unspecified: log entry 2.) -/
def Obligations.ResponsesStayInTheTaxonomy : Prop :=
  ∀ s t : State, s.ExtInv → step s = .next t →
    t.ExtInv ∧
      ∀ a r, (t.port a).responses = (s.port a).responses ++ [r] →
        r.status ≠ .notPow2 ∧ r.status ≠ .tooSmall ∧ ((statusCode r.status).toNat ≤ 7 ∨ 16 ≤ (statusCode r.status).toNat)

/-! ### Registers, positions and byte spaces -/

/-- 20_memory.md R48: `idx(s) = s & MASK` is `s mod SIZE`, is below `SIZE`, and repeats every `SIZE` positions; and `SIZE`
is `2^ADDR_BITS` (00_scope.md R6). -/
def Obligations.IndexIsPositionModSize : Prop :=
  ∀ (s : State) q, s.SizeInv → 0 ≤ q.toInt →
    s.idx q = (q &&& s.mask).toNat ∧ s.idx q = q.toInt.toNat % s.sizeNat ∧ s.idx q < s.sizeNat ∧
      (q.toInt + s.size.toInt ≤ maxInt64 → s.idx (narrow (q.toInt + s.size.toInt)) = s.idx q) ∧
      s.sizeNat = 2 ^ s.addrBits ∧ s.addrBits ≤ 62

/-- 20_memory.md R51: `ringCopy` writes byte `i` of the run to cell `(start + i) mod |dst|`, leaves every other cell, and
keeps the canonical form. -/
def Obligations.RingCopyWrapsToZero : Prop :=
  ∀ (m : Memory) (size start : Nat) (v : List Byte), m.wf → start < size → v.length ≤ size →
    ∃ m', ringCopy m size start v = .ok m' ∧ m'.wf ∧
      (∀ i, i < v.length → m'.read ((start + i) % size) = v[i]?) ∧
      ∀ a, (∀ i, i < v.length → a ≠ (start + i) % size) → m'.read a = m.read a

/-- 20_memory.md R59: with `SAMPLE_LAG = none` a cross-port load returns the current value; with `lagging` one between
the bound and the current value, and any such value can be returned. -/
def Obligations.SampleRange : Prop :=
  (∀ s : State, s.FloorInv → s.params.sampleLag = .none → s.sample = s.otherCursor s.turn) ∧
    (∀ s : State, s.FloorInv →
      (s.port s.turn).floor.toInt ≤ s.sample.toInt ∧ s.sample.toInt ≤ (s.otherCursor s.turn).toInt) ∧
    ∀ floor cur v : Word, floor.toInt ≤ v.toInt → v.toInt ≤ cur.toInt → ∃ lag, observe .lagging floor cur lag = v

/-- 10_state.md R38, R14; 43_common_commands.md R131: no command changes the configuration registers, the dead words
(R27) or the parameters, and none clears `DONE` (R28). -/
def Obligations.CommandsKeepConfiguration : Prop :=
  ∀ i (s t : State), exec i s = .next t →
    t.size = s.size ∧ t.mask = s.mask ∧ t.ident = s.ident ∧ t.cfgState = s.cfgState ∧ t.cfgErr = s.cfgErr ∧
      t.hint = s.hint ∧ t.params = s.params ∧ t.pseq.pad = s.pseq.pad ∧ t.cseq.gate = s.cseq.gate ∧
      t.cseq.pad = s.cseq.pad ∧ (s.done = true → t.done = true)

/-! ### The gate and the consumer wait -/

/-- 40_producer_commands.md R96: steps G1 to G4 of `Gate(p.n)` in WRITE, RSVE, READFROM and READFROMB. The claim goes to
the caller's next step; `EOS` ends the caller with the running total of a macro and 0 otherwise. (A claim that would
break the premise of R69 is refused at G1: log entry 11. That G3 with `DONE` set answers `EOS` is R96's for `SAMPLE_LAG =
none`; with `lagging` it is the model's choice, that a load of `DONE` is never stale: log entry 29.) -/
def Obligations.GateSteps : Prop :=
  ∀ i (s : State), s.turn = .P → (isWriting i = true ∨ isReserving i = true) →
    (s.phase = .run i .G1 →
      s.pseq.cursor.toInt + s.p.n.toInt + s.size.toInt ≤ maxInt64 →
      exec i s =
        .next
          { s with
            p :=
              { s.p with
                ppos := s.pseq.cursor,
                next := narrow (s.pseq.cursor.toInt + s.p.n.toInt),
                wrap := narrow (s.pseq.cursor.toInt + s.p.n.toInt - s.size.toInt),
                g := s.pseq.gate },
            pPort :=
              { s.pPort with
                phase :=
                  .run i
                    (if s.pseq.gate.toInt < s.pseq.cursor.toInt + s.p.n.toInt - s.size.toInt ∨
                        s.pseq.cursor.toInt < s.pseq.gate.toInt then .G2 else .G4) } }) ∧
    (s.phase = .run i .G2 →
      exec i s =
        .next
          (if s.p.wrap.toInt ≤ s.sample.toInt then
            { s with
              pseq := { s.pseq with gate := s.sample }, p := { s.p with c := s.sample },
              pPort := { s.pPort with phase := .run i .G4, floor := s.sample } }
          else
            { s with
              p := { s.p with c := s.sample },
              pPort := { s.pPort with phase := .run i .G3, floor := s.sample } })) ∧
    (s.phase = .run i .G3 → s.done = false →
      exec i s = .next { s with pPort := { s.pPort with phase := .run i .G2 } }) ∧
    (s.phase = .run i .G3 → s.done = true →
      ∃ t, exec i s = .next t ∧ s.SameRegisters t ∧
        t.pPort =
          s.pPort.answered
            ⟨.eos, if i = .readFrom ∨ i = .readFromB then s.p.total else 0, 0, []⟩) ∧
    (s.phase = .run i .G4 →
      exec i s = .next { s with pPort := { s.pPort with phase := .run i (if isWriting i then .W3 else .V3) } })

/-- 41_consumer_commands.md R107: steps K1 to K4 of `CWait()` in READ, PEEK and WRITETO. Data wins over close: `DONE` is
read only at K3, after a sample that showed no data, and `CWAIT` counts exactly these iterations. (That K3 with `DONE` set
answers `EOS` is R107's for `SAMPLE_LAG = none`; with `lagging` it is the model's choice, that a load of `DONE` is never
stale: log entry 29.) -/
def Obligations.ConsumerWaitSteps : Prop :=
  ∀ i (s : State), s.turn = .C → ((∃ n, i = .read n) ∨ (∃ n, i = .peek n) ∨ i = .writeTo) →
    (s.phase = .run i .K1 →
      exec i s =
        .next { s with c := { s.c with cpos := s.cseq.cursor }, cPort := { s.cPort with phase := .run i .K2 } }) ∧
    (s.phase = .run i .K2 →
      exec i s =
        .next
          { s with
            c := { s.c with ppos := s.sample },
            cPort :=
              { s.cPort with
                phase := .run i (if s.c.cpos.toInt < s.sample.toInt then .K4 else .K3), floor := s.sample } }) ∧
    (s.phase = .run i .K3 → s.done = false →
      exec i s = .next { s with cwait := s.cwait + 1, cPort := { s.cPort with phase := .run i .K2 } }) ∧
    (s.phase = .run i .K3 → s.done = true →
      exec i s =
        .next
          { s with
            cwait := s.cwait + 1,
            cPort := s.cPort.answered ⟨.eos, if i = .writeTo then s.c.total else 0, 0, []⟩ }) ∧
    ∀ after, (((∃ n, i = .read n) ∧ after = .A3) ∨ ((∀ n, i ≠ .read n) ∧ after = .B3)) → s.phase = .run i .K4 →
      exec i s =
        .next
          { s with
            c := { s.c with avail := narrow (s.c.ppos.toInt - s.c.cpos.toInt) },
            cPort := { s.cPort with phase := .run i after } }

/-- 40_producer_commands.md R98 (a), (b), (d), (e): in a sound state the gate waits exactly when `ppos + n - SIZE >
PSEQ.gate` (the other arm is dead); a claim that does not wait is safe; the first `SIZE` bytes and a claim of 0 bytes
never wait. -/
def Obligations.GateFacts : Prop :=
  ∀ i (s t : State), s.Inv → s.cfgState = .ready → s.turn = .P → (isWriting i = true ∨ isReserving i = true) →
    s.phase = .run i .G1 → exec i s = .next t →
    s.pseq.gate.toInt ≤ s.pseq.cursor.toInt ∧
      (t.phase = .run i .G2 ↔ s.pseq.gate.toInt < s.pseq.cursor.toInt + s.p.n.toInt - s.size.toInt) ∧
      (t.phase = .run i .G4 →
        t.p.next.toInt - s.size.toInt ≤ s.pseq.gate.toInt ∧ s.pseq.gate.toInt ≤ s.cseq.cursor.toInt) ∧
      (s.pseq.cursor.toInt + s.p.n.toInt ≤ s.size.toInt → t.phase = .run i .G4) ∧
      (s.p.n = 0 → t.phase = .run i .G4)

/-- 40_producer_commands.md R98 (g), R101: with `SAMPLE_LAG = none` a waiting claim of `n` bytes stays in the wait past a
sample exactly when `SIZE - LEN < n` at that sample. -/
def Obligations.WaitsExactlyWhileRoomIsShort : Prop :=
  ∀ i (s t : State), s.Inv → s.cfgState = .ready → s.params.sampleLag = .none → s.turn = .P →
    (isWriting i = true ∨ isReserving i = true) → s.phase = .run i .G2 → exec i s = .next t →
    (t.phase = .run i .G3 ↔ s.freeRegion < s.p.n.toInt) ∧ (t.phase = .run i .G4 ↔ s.p.n.toInt ≤ s.freeRegion)

/-- 20_memory.md R67: with `SAMPLE_LAG = none` the two agents are never waiting on each other. -/
def Obligations.NeverBothBlocked : Prop :=
  ∀ s : State, s.Inv → s.cfgState = .ready → ¬ (s.producerBlocked ∧ s.consumerBlocked)

/-! ### Labelled steps: results -/

/-- 40_producer_commands.md R92; 42_macro_commands.md R119, R124: W3 stores the payload and W4 publishes it. WRITE then
answers `(OK, n)`; READFROMB adds `n` to its running total and goes on to E3. Nothing else changes. (That the inner WRITE
of READFROMB raises the bound of 20_memory.md R59 at W1 is the model's inference from R123, no rule of the spec: log entry
9, DEDUCED.) -/
def Obligations.WriteStoresAndPublishes : Prop :=
  ∀ i (s : State), s.turn = .P → isWriting i = true →
    (s.Inv → s.cfgState = .ready → s.phase = .run i .W3 →
      ∃ m, ringCopy s.buf s.sizeNat (s.idx s.p.ppos) s.p.data = .ok m ∧
        exec i s = .next { s with buf := m, pPort := { s.pPort with phase := .run i .W4 } }) ∧
    (∀ n, i = .write n → s.phase = .run i .W4 →
      exec i s =
        .next
          { s with
            pseq := { s.pseq with cursor := s.p.next }, pPort := s.pPort.answered ⟨.ok, s.p.n, 0, []⟩ }) ∧
    (i = .readFromB → s.phase = .run i .W4 →
      exec i s =
        .next
          { s with
            pseq := { s.pseq with cursor := s.p.next },
            p := { s.p with total := narrow (s.p.total.toInt + s.p.n.toInt) },
            pPort := { s.pPort with phase := .run i .E3 } }) ∧
    (i = .readFromB → s.phase = .run i .W1 → 0 ≤ s.p.n.toInt → s.p.n.toInt ≤ s.size.toInt →
      exec i s = .next { s with pPort := { s.acceptedPort with phase := .run i .G1 } })

/-- 40_producer_commands.md R94, R95; 42_macro_commands.md R118, R124: V3 records the reservation; RSVE answers with its
length and its start, READFROM goes on to F2. U2 publishes `k` bytes from `RSV.pos` and ends the reservation; PUBL answers
`(OK, k)`, READFROM adds `k` to its running total and goes on to F4. READFROM's inner RSVE starts at V1, asking for the run
up to the physical end, at most `RBLK`, and its inner PUBL at U1, storing the source's bytes at `RSV.pos`. (That both raise
the bound of 20_memory.md R59 there is the model's inference from R123, no rule of the spec: log entry 9, DEDUCED.) -/
def Obligations.ReservationIsRecordedAndEnded : Prop :=
  ∀ s : State, s.turn = .P →
    (s.phase = .run .rsve .V3 →
      exec .rsve s =
        .next { s with rsv := ⟨true, s.p.ppos, s.p.n⟩, pPort := s.pPort.answered ⟨.ok, s.p.n, s.p.ppos, []⟩ }) ∧
    (s.phase = .run .readFrom .V3 →
      exec .readFrom s =
        .next { s with rsv := ⟨true, s.p.ppos, s.p.n⟩, pPort := { s.pPort with phase := .run .readFrom .F2 } }) ∧
    (∀ k, s.phase = .run (.publ k) .U2 →
      exec (.publ k) s =
        .next
          { s with
            pseq := { s.pseq with cursor := narrow (s.rsv.pos.toInt + s.p.n.toInt) },
            rsv := { s.rsv with valid := false },
            pPort := s.pPort.answered ⟨.ok, s.p.n, 0, []⟩ }) ∧
    (s.phase = .run .readFrom .U2 →
      exec .readFrom s =
        .next
          { s with
            pseq := { s.pseq with cursor := narrow (s.rsv.pos.toInt + s.p.n.toInt) },
            rsv := { s.rsv with valid := false },
            p := { s.p with total := narrow (s.p.total.toInt + s.p.n.toInt) },
            pPort := { s.pPort with phase := .run .readFrom .F4 } }) ∧
    (s.phase = .run .readFrom .V1 →
      exec .readFrom s =
        .next
          { s with
            p :=
              { s.p with
                ppos := s.pseq.cursor,
                n := narrow (min (s.params.rblk : Int) (s.size.toInt - s.idx s.pseq.cursor)) },
            pPort := { s.acceptedPort with phase := .run .readFrom .G1 } }) ∧
    (s.Inv → s.cfgState = .ready → s.phase = .run .readFrom .U1 →
      exec .readFrom s =
        .next
          { s with
            buf := s.buf.write (s.idx s.rsv.pos) s.p.data,
            pPort := { s.acceptedPort with phase := .run .readFrom .U2 } })

/-- 41_consumer_commands.md R108: A3 copies the `m = min(cap, avail, SIZE - start)` bytes at the positions from `cpos` on,
and A4 retires them and answers `(OK, m, 0, bytes)`. -/
def Obligations.ReadCopiesAndRetires : Prop :=
  ∀ cap (s : State), s.turn = .C →
    (s.Inv → s.cfgState = .ready → s.phase = .run (.read cap) .A3 →
      ∃ v, (v.length : Int) = min (min s.c.n.toInt s.c.avail.toInt) (s.size.toInt - s.idx s.c.cpos) ∧
        s.Holds s.c.cpos.toInt v ∧
        exec (.read cap) s =
          .next
            { s with
              c := { s.c with start := narrow (s.idx s.c.cpos), m := narrow v.length, view := v },
              cPort := { s.cPort with phase := .run (.read cap) .A4 } }) ∧
    (s.phase = .run (.read cap) .A4 →
      exec (.read cap) s =
        .next
          { s with
            cseq := { s.cseq with cursor := narrow (s.c.cpos.toInt + s.c.m.toInt) },
            cPort := s.cPort.answered ⟨.ok, s.c.m, 0, s.c.view⟩ })

/-- 41_consumer_commands.md R110, R113; 42_macro_commands.md R120; 30_encoding.md R84: B3 of a PEEK takes the
`m = min(n, avail)` bytes at the positions from `cpos` on. PEEK answers them, `OK` when `m = n` and `INSUF` otherwise, with
the descriptor of the view: `BUF` and `idx(cpos)` when the region is contiguous (`TMP` untouched), `TMP` and 0 when it
wraps (the bytes then stand in `TMP[0 .. m)`), and 0 when `m = 0`. WRITETO holds them as its view, never an empty one, for
the sink at T2, its running total as it was. -/
def Obligations.PeekAnswersView : Prop :=
  ∀ i (s : State), s.Inv → s.cfgState = .ready → s.turn = .C → ((∃ n, i = .peek n) ∨ i = .writeTo) →
    s.phase = .run i .B3 →
    ∃ t v st aux, exec i s = .next t ∧ (v.length : Int) = min s.c.n.toInt s.c.avail.toInt ∧
      s.Holds s.c.cpos.toInt v ∧
      (∀ n, i = .peek n → t.cPort = s.cPort.answered ⟨st, narrow v.length, aux, v⟩) ∧
      (i = .writeTo →
        t.cPort = { s.cPort with phase := .run i .T2 } ∧ t.c.view = v ∧ t.c.m.toInt = v.length ∧ v ≠ [] ∧
          t.c.total = s.c.total) ∧
      (st = if (v.length : Int) = s.c.n.toInt then .ok else .insuf) ∧
      (v = [] → aux = 0 ∧ t.tmp = s.tmp) ∧
      (v ≠ [] → s.idx s.c.cpos + v.length ≤ s.sizeNat →
        aux.getLsbD 63 = false ∧ aux.toNat = s.idx s.c.cpos ∧ t.tmp = s.tmp) ∧
      (s.sizeNat < s.idx s.c.cpos + v.length →
        aux.getLsbD 63 = true ∧ aux.extractLsb' 0 63 = 0 ∧
          (∀ j, j < v.length → t.tmp.read j = v[j]?) ∧ ∀ j, v.length ≤ j → t.tmp.read j = s.tmp.read j)

/-- 41_consumer_commands.md R112: steps M1 to M3 of COMMIT. `NEG` and `FULL` at once; `INSUF` with nothing advanced when
`n` exceeds the one sample; else the cursor advances by exactly `n`. -/
def Obligations.CommitSteps : Prop :=
  ∀ n (s : State), s.turn = .C →
    (s.phase = .run (.commit n) .M1 → s.c.n.toInt < 0 →
      exec (.commit n) s = .next { s with cPort := s.cPort.answered ⟨.neg, 0, 0, []⟩ }) ∧
    (s.phase = .run (.commit n) .M1 → 0 ≤ s.c.n.toInt → s.size.toInt < s.c.n.toInt →
      exec (.commit n) s = .next { s with cPort := s.cPort.answered ⟨.full, 0, 0, []⟩ }) ∧
    (s.phase = .run (.commit n) .M1 → 0 ≤ s.c.n.toInt → s.c.n.toInt ≤ s.size.toInt →
      exec (.commit n) s = .next { s with cPort := { s.cPort with phase := .run (.commit n) .M2 } }) ∧
    (s.phase = .run (.commit n) .M2 → s.sample.toInt - s.cseq.cursor.toInt < s.c.n.toInt →
      exec (.commit n) s =
        .next
          { s with
            c := { s.c with cpos := s.cseq.cursor, ppos := s.sample },
            cPort := { s.cPort.answered ⟨.insuf, 0, 0, []⟩ with floor := s.sample } }) ∧
    (s.phase = .run (.commit n) .M2 → s.c.n.toInt ≤ s.sample.toInt - s.cseq.cursor.toInt →
      exec (.commit n) s =
        .next
          { s with
            c := { s.c with cpos := s.cseq.cursor, ppos := s.sample },
            cPort := { s.cPort with phase := .run (.commit n) .M3, floor := s.sample } }) ∧
    (s.phase = .run (.commit n) .M3 →
      exec (.commit n) s =
        .next
          { s with
            cseq := { s.cseq with cursor := narrow (s.c.cpos.toInt + s.c.n.toInt) },
            cPort := s.cPort.answered ⟨.ok, s.c.n, 0, []⟩ })

/-- 43_common_commands.md R126: LEN answers `(OK, LEN)` on either port. With `SAMPLE_LAG = none`, L1 then L2 with no step
of the other agent between answer the length, which lies in `0 .. SIZE`, and write no register and no byte; whatever the
other agent did since L1, the second load answers own minus sample on the P-port and sample minus own on the C-port. (That
with `lagging` the sample, and so the answer, may be older than `LEN` at L2 is the model's choice, log entry 30.) -/
def Obligations.LenAnswersLength : Prop :=
  (∀ s : State, s.Inv → s.cfgState = .ready → s.params.sampleLag = .none → s.phase = .idle →
      0 ≤ s.length ∧ s.length ≤ s.size.toInt ∧
        ∃ u t : State, exec .len s = .next u ∧ u.phase = .run .len .L2 ∧ exec .len u = .next t ∧ s.SameRegisters t ∧
          (t.port t.turn).phase = .idle ∧
          (t.port t.turn).responses = (s.port s.turn).responses ++ [⟨.ok, narrow s.length, 0, []⟩]) ∧
    ∀ s : State, s.phase = .run .len .L2 →
      (s.turn = .P →
        exec .len s =
          .next
            { s with
              p := { s.p with c := s.sample },
              pPort :=
                { s.pPort.answered ⟨.ok, narrow (s.p.ppos.toInt - s.sample.toInt), 0, []⟩ with
                  floor := s.sample } }) ∧
      (s.turn = .C →
        exec .len s =
          .next
            { s with
              c := { s.c with ppos := s.sample },
              cPort :=
                { s.cPort.answered ⟨.ok, narrow (s.sample.toInt - s.c.cpos.toInt), 0, []⟩ with
                  floor := s.sample } })

/-- 43_common_commands.md R127: ID answers `(OK, ID)` on both ports, writes nothing, and no command, CLOSE included,
changes `ID`; `rst` loads it from the strap. -/
def Obligations.IdAnswersIdentifier : Prop :=
  (∀ s : State, s.cfgState = .ready → s.phase = .idle →
      exec .ident s = .next (s.setPort s.turn (s.acceptedPort.answered ⟨.ok, s.ident, 0, []⟩))) ∧
    (∀ i (s t : State), exec i s = .next t → t.ident = s.ident) ∧
    ∀ z id (s : State) w, checkSize s.params z = .size w → (resetWith z id s).ident = id

/-- 43_common_commands.md R128, R129 (d): CLOSE on either port sets `DONE`, answers `(OK, 0)` and touches nothing else;
a second CLOSE answers the same and changes no register. -/
def Obligations.CloseSetsDone : Prop :=
  (∀ s : State, s.cfgState = .ready → s.phase = .idle →
      exec .close s =
        .next { s.setPort s.turn (s.acceptedPort.answered ⟨.ok, 0, 0, []⟩) with done := true }) ∧
    ∀ s t : State, s.cfgState = .ready → s.phase = .idle → s.done = true → exec .close s = .next t → s.SameRegisters t

/-- 42_macro_commands.md R116, R118, R119: the source in READFROM and READFROMB. At F2 and E1 its answer `(k, d, e)` is
latched for the inner PUBL or WRITE. At F4 and E3 the macro goes round while there was no error; at the source's end or
error it answers `EOS` or the source's own code with the running total, and changes nothing else. -/
def Obligations.SourceAnswerSteps : Prop :=
  (∀ i l next mx a rest (s : State), s.turn = .P →
      ((i = .readFrom ∧ l = .F2 ∧ next = .U1 ∧ mx = s.rsv.len.toInt) ∨
        (i = .readFromB ∧ l = .E1 ∧ next = .W1 ∧ mx = s.params.rblk)) →
      s.phase = .run i l → s.env.source = a :: rest → a.fits mx = true →
      exec i s =
        .next
          { s with
            env := { s.env with source := rest },
            p := { s.p with n := narrow a.data.length, data := a.data, err := a.err },
            pPort := { s.pPort with phase := .run i next } }) ∧
    ∀ i l again (s : State), s.turn = .P →
      ((i = .readFrom ∧ l = .F4 ∧ again = .V1) ∨ (i = .readFromB ∧ l = .E3 ∧ again = .E1)) → s.phase = .run i l →
      (s.p.err = .none → exec i s = .next { s with pPort := { s.pPort with phase := .run i again } }) ∧
        (s.p.err = .eos → exec i s = .next { s with pPort := s.pPort.answered ⟨.eos, s.p.total, 0, []⟩ }) ∧
        ∀ x, s.p.err = .ext x → exec i s = .next { s with pPort := s.pPort.answered ⟨.ext x, s.p.total, 0, []⟩ }

/-- 42_macro_commands.md R117, R120, R124: WRITETO around its sink. T2 gives the sink the view. T3 without an error hands
its length to the inner COMMIT; with one the bytes the sink took are counted, committed only under
`WRITETO_COMMIT_ON_SINK_ERROR`, and the sink's own code ends the command. The inner PEEK and COMMIT start at B1 and M1; M2
of a sound state never finds too little, so the COMMIT always goes on to M3; and M3 advances the consumer cursor and,
without an error, adds the view's length to the running total and goes round to a new PEEK of `WBLK`. (That the inner
commands raise the bound of 20_memory.md R59 at B1 and M1, on which the M2 clause leans under `SAMPLE_LAG = lagging`, is
the model's inference from R123, no rule of the spec: log entry 9, DEDUCED.) -/
def Obligations.SinkAnswerSteps : Prop :=
  ∀ s : State, s.turn = .C →
    (∀ a rest, s.phase = .run .writeTo .T2 → s.env.sink = a :: rest → a.fits s.c.view = true →
      exec .writeTo s =
        .next
          { s with
            env := { s.env with sink := rest, delivered := s.env.delivered ++ [s.c.view] },
            c := { s.c with k := narrow a.count, err := a.err },
            cPort := { s.cPort with phase := .run .writeTo .T3 } }) ∧
    (s.phase = .run .writeTo .T3 → s.c.err = none →
      exec .writeTo s =
        .next { s with c := { s.c with n := s.c.m }, cPort := { s.cPort with phase := .run .writeTo .M1 } }) ∧
    (∀ x, s.phase = .run .writeTo .T3 → s.c.err = some x → s.params.commitOnSinkError = false →
      exec .writeTo s =
        .next
          { s with
            c := { s.c with total := narrow (s.c.total.toInt + s.c.k.toInt) },
            cPort := s.cPort.answered ⟨.ext x, narrow (s.c.total.toInt + s.c.k.toInt), 0, []⟩ }) ∧
    (∀ x, s.phase = .run .writeTo .T3 → s.c.err = some x → s.params.commitOnSinkError = true →
      exec .writeTo s =
        .next
          { s with
            c := { s.c with total := narrow (s.c.total.toInt + s.c.k.toInt), n := s.c.k },
            cPort := { s.cPort with phase := .run .writeTo .M1 } }) ∧
    (∀ l next, ((l = .B1 ∧ next = .K1) ∨ (l = .M1 ∧ next = .M2)) → s.phase = .run .writeTo l →
      0 ≤ s.c.n.toInt → s.c.n.toInt ≤ s.size.toInt →
      exec .writeTo s = .next { s with cPort := { s.acceptedPort with phase := .run .writeTo next } }) ∧
    (s.Inv → s.cfgState = .ready → s.phase = .run .writeTo .M2 →
      exec .writeTo s =
        .next
          { s with
            c := { s.c with cpos := s.cseq.cursor, ppos := s.sample },
            cPort := { s.cPort with phase := .run .writeTo .M3, floor := s.sample } }) ∧
    (s.phase = .run .writeTo .M3 → s.c.err = none →
      exec .writeTo s =
        .next
          { s with
            cseq := { s.cseq with cursor := narrow (s.c.cpos.toInt + s.c.n.toInt) },
            c := { s.c with total := narrow (s.c.total.toInt + s.c.m.toInt), n := narrow s.params.wblk },
            cPort := { s.cPort with phase := .run .writeTo .B1 } }) ∧
    ∀ x, s.phase = .run .writeTo .M3 → s.c.err = some x →
      exec .writeTo s =
        .next
          { s with
            cseq := { s.cseq with cursor := narrow (s.c.cpos.toInt + s.c.n.toInt) },
            cPort := s.cPort.answered ⟨.ext x, s.c.total, 0, []⟩ }

/-- 60_exceptions.md R134 to R136: a negative count is answered `NEG` by WRITE, READ, PEEK and COMMIT, and a count above
`SIZE` is answered `FULL` by WRITE, PEEK and COMMIT, before any wait, whatever the fill state and the payload, with no
register, `BUF` or `TMP` changed. -/
def Obligations.BadCountIsAnswered : Prop :=
  ∀ i n (s : State) st, s.cfgState = .ready → s.phase = .idle →
    ((i = .write n ∧ s.turn = .P ∧ s.rsv.valid = false) ∨
      (s.turn = .C ∧ (i = .peek n ∨ i = .commit n ∨ (i = .read n ∧ n.toInt < 0)))) →
    ((n.toInt < 0 ∧ st = .neg) ∨ (0 ≤ n.toInt ∧ s.size.toInt < n.toInt ∧ st = .full)) →
    ∃ t, exec i s = .next t ∧ s.SameRegisters t ∧ t.port t.turn = s.acceptedPort.answered ⟨st, 0, 0, []⟩

/-! ### Whole commands, the other agent taking no step -/

/-- 40_producer_commands.md R92, R93: a WRITE of `n` bytes for which there is room by the gate or by the first sample
stores its payload at the positions from the producer cursor on, advances the cursor by `n`, answers `(OK, n)`, and
refreshes the gate only if it had to sample. `DONE` plays no part. -/
def Obligations.WriteRuns : Prop :=
  ∀ n (s : State), s.Inv → s.cfgState = .ready → s.params.sampleLag = .none → s.turn = .P → s.phase = .idle →
    s.rsv.valid = false → 0 ≤ n.toInt → n.toInt ≤ s.size.toInt → (s.pPort.payload.length : Int) = n.toInt →
    n.toInt ≤ s.freeRegion → s.FarFromHorizon →
    ∃ t, execAlone 6 (.write n) s = .next t ∧ t.phase = .idle ∧
      t.pPort.responses = s.pPort.responses ++ [⟨.ok, n, 0, []⟩] ∧
      t.pseq.cursor.toInt = s.pseq.cursor.toInt + n.toInt ∧
      t.pseq.gate =
        (if s.pseq.gate.toInt < s.pseq.cursor.toInt + n.toInt - s.size.toInt then s.cseq.cursor else s.pseq.gate) ∧
      t.Holds s.pseq.cursor.toInt s.pPort.payload ∧
      (∀ a, ringCovers s.sizeNat (s.idx s.pseq.cursor) s.pPort.payload.length a = false →
        t.buf.read a = s.buf.read a) ∧
      t.cseq = s.cseq ∧ t.rsv = s.rsv ∧ t.tmp = s.tmp ∧ t.done = s.done

/-- 40_producer_commands.md R93 (h), R100, R103: a WRITE without room on a closed ring answers `(EOS, 0)` in its first
iteration, and the cursor, the gate, `BUF` and the reservation are as they were before the command. -/
def Obligations.WriteEndsOnClosedRing : Prop :=
  ∀ n (s : State), s.Inv → s.cfgState = .ready → s.params.sampleLag = .none → s.turn = .P → s.phase = .idle →
    s.rsv.valid = false → 0 ≤ n.toInt → n.toInt ≤ s.size.toInt → (s.pPort.payload.length : Int) = n.toInt →
    s.freeRegion < n.toInt → s.done = true → s.FarFromHorizon →
    ∃ t, execAlone 4 (.write n) s = .next t ∧ s.SameRegisters t ∧ t.phase = .idle ∧
      t.pPort.responses = s.pPort.responses ++ [⟨.eos, 0, 0, []⟩]

/-- 40_producer_commands.md R94: RSVE with room answers the run from the producer cursor to the physical end, at most
`RBLK` bytes, and records it; the cursor and `BUF` are not written. -/
def Obligations.ReserveRuns : Prop :=
  ∀ (s : State) len, s.Inv → s.cfgState = .ready → s.params.sampleLag = .none → s.turn = .P → s.phase = .idle →
    s.rsv.valid = false → len = min (s.params.rblk : Int) (s.size.toInt - s.idx s.pseq.cursor) →
    len ≤ s.freeRegion → s.FarFromHorizon →
    ∃ t, execAlone 5 .rsve s = .next t ∧ t.phase = .idle ∧
      t.pPort.responses = s.pPort.responses ++ [⟨.ok, narrow len, s.pseq.cursor, []⟩] ∧
      t.rsv = ⟨true, s.pseq.cursor, narrow len⟩ ∧ 1 ≤ len ∧ t.pseq.cursor = s.pseq.cursor ∧ t.buf = s.buf ∧
      t.cseq = s.cseq ∧ t.tmp = s.tmp ∧ t.done = s.done

/-- 40_producer_commands.md R95: PUBL of `k` bytes within a standing reservation stores them at the positions from
`RSV.pos` on, advances the cursor by `k`, ends the reservation and answers `(OK, k)`, closed or not. -/
def Obligations.PublishRuns : Prop :=
  ∀ k (s : State), s.Inv → s.cfgState = .ready → s.turn = .P → s.phase = .idle → s.rsv.valid = true → 0 ≤ k.toInt →
    k.toInt ≤ s.rsv.len.toInt → (s.pPort.payload.length : Int) = k.toInt →
    ∃ t, execAlone 2 (.publ k) s = .next t ∧ t.phase = .idle ∧
      t.pPort.responses = s.pPort.responses ++ [⟨.ok, k, 0, []⟩] ∧
      t.pseq.cursor.toInt = s.pseq.cursor.toInt + k.toInt ∧ t.pseq.gate = s.pseq.gate ∧ t.rsv.valid = false ∧
      t.Holds s.pseq.cursor.toInt s.pPort.payload ∧
      (∀ a, ringCovers s.sizeNat (s.idx s.pseq.cursor) s.pPort.payload.length a = false →
        t.buf.read a = s.buf.read a) ∧
      t.cseq = s.cseq ∧ t.tmp = s.tmp ∧ t.done = s.done

/-- 41_consumer_commands.md R108, R109: READ with data present answers `m = min(cap, LEN, SIZE - idx(cpos))` bytes, those
at the positions from the consumer cursor on, and advances the cursor by `m`; `BUF` is unchanged; with a capacity of at
least 1 it never answers 0 bytes; a capacity above `SIZE` is no error. -/
def Obligations.ReadRuns : Prop :=
  ∀ cap (s : State) m, s.Inv → s.cfgState = .ready → s.params.sampleLag = .none → s.turn = .C → s.phase = .idle →
    0 ≤ cap.toInt → s.cseq.cursor.toInt < s.pseq.cursor.toInt →
    m = min (min cap.toInt s.length) (s.size.toInt - s.idx s.cseq.cursor) →
    (1 ≤ cap.toInt → 1 ≤ m) ∧
      ∃ t v, execAlone 6 (.read cap) s = .next t ∧ t.phase = .idle ∧ (v.length : Int) = m ∧
        s.Holds s.cseq.cursor.toInt v ∧
        t.cPort.responses = s.cPort.responses ++ [⟨.ok, narrow m, 0, v⟩] ∧
        t.cseq.cursor.toInt = s.cseq.cursor.toInt + m ∧ t.pseq = s.pseq ∧ t.buf = s.buf ∧ t.tmp = s.tmp ∧
        t.cwait = s.cwait ∧ t.done = s.done ∧ t.rsv = s.rsv

/-- 41_consumer_commands.md R107 to R110; 43_common_commands.md R129 (a): READ, PEEK and WRITETO on a closed and empty
ring answer `(EOS, 0)` with an empty view after one sample; of the registers only `CWAIT` changes, by one. -/
def Obligations.ReadersEndOnClosedEmptyRing : Prop :=
  ∀ i (s : State), s.Inv → s.cfgState = .ready → s.params.sampleLag = .none → s.turn = .C → s.phase = .idle →
    ((∃ cap, i = .read cap ∧ 0 ≤ cap.toInt) ∨ (∃ n, i = .peek n ∧ 0 ≤ n.toInt ∧ n.toInt ≤ s.size.toInt) ∨
      i = .writeTo) →
    s.cseq.cursor = s.pseq.cursor → s.done = true →
    ∃ t, execAlone 5 i s = .next t ∧ t.phase = .idle ∧
      t.cPort.responses = s.cPort.responses ++ [⟨.eos, 0, 0, []⟩] ∧ t.cwait = s.cwait + 1 ∧
      State.SameRegisters { s with cwait := s.cwait + 1 } t

/-- 41_consumer_commands.md R112, R114: COMMIT of at most `LEN` bytes advances the consumer cursor by exactly `n` and
answers `(OK, n)`; of more, up to `SIZE`, it advances nothing and answers `(INSUF, 0)`. -/
def Obligations.CommitRuns : Prop :=
  ∀ n (s : State), s.Inv → s.cfgState = .ready → s.params.sampleLag = .none → s.turn = .C → s.phase = .idle →
    0 ≤ n.toInt → n.toInt ≤ s.size.toInt →
    ∃ t, execAlone 3 (.commit n) s = .next t ∧ t.phase = .idle ∧
      State.SameRegisters { s with cseq := t.cseq } t ∧
      (n.toInt ≤ s.length →
        t.cPort.responses = s.cPort.responses ++ [⟨.ok, n, 0, []⟩] ∧
          t.cseq.cursor.toInt = s.cseq.cursor.toInt + n.toInt) ∧
      (s.length < n.toInt →
        t.cPort.responses = s.cPort.responses ++ [⟨.insuf, 0, 0, []⟩] ∧ t.cseq = s.cseq)

/-- 41_consumer_commands.md R110, R114 (f), (g): PEEK with data present and then COMMIT of what it returned: the view is
the published bytes at the cursor, and the COMMIT cannot fail. -/
def Obligations.PeekThenCommitRuns : Prop :=
  ∀ n (s : State), s.Inv → s.cfgState = .ready → s.params.sampleLag = .none → s.turn = .C → s.phase = .idle →
    0 ≤ n.toInt → n.toInt ≤ s.size.toInt → s.cseq.cursor.toInt < s.pseq.cursor.toInt →
    ∃ u v st aux t, execAlone 5 (.peek n) s = .next u ∧ u.phase = .idle ∧ (v.length : Int) = min n.toInt s.length ∧
      s.Holds s.cseq.cursor.toInt v ∧ u.cPort.responses = s.cPort.responses ++ [⟨st, narrow v.length, aux, v⟩] ∧
      (st = if n.toInt ≤ s.length then .ok else .insuf) ∧ u.cseq = s.cseq ∧ u.buf = s.buf ∧
      execAlone 3 (.commit (narrow v.length)) u = .next t ∧ t.phase = .idle ∧
      t.cPort.responses = u.cPort.responses ++ [⟨.ok, narrow v.length, 0, []⟩] ∧
      t.cseq.cursor.toInt = s.cseq.cursor.toInt + v.length

/-- 42_macro_commands.md R118, R121 (b), (d): READFROM whose source answers `k` bytes together with its end or its error:
the bytes are published first, then the end or the source's code is answered with their number. -/
def Obligations.ReadFromRuns : Prop :=
  ∀ (s : State) a rest len st, s.Inv → s.cfgState = .ready → s.params.sampleLag = .none → s.turn = .P → s.phase = .idle →
    s.rsv.valid = false → len = min (s.params.rblk : Int) (s.size.toInt - s.idx s.pseq.cursor) →
    len ≤ s.freeRegion → s.FarFromHorizon → s.env.source = a :: rest → a.fits len = true →
    ((a.err = .eos ∧ st = .eos) ∨ ∃ x, a.err = .ext x ∧ st = .ext x) →
    ∃ t, execAlone 10 .readFrom s = .next t ∧ t.phase = .idle ∧
      t.pPort.responses = s.pPort.responses ++ [⟨st, narrow a.data.length, 0, []⟩] ∧
      t.pseq.cursor.toInt = s.pseq.cursor.toInt + a.data.length ∧ t.rsv.valid = false ∧
      t.Holds s.pseq.cursor.toInt a.data ∧ t.env.source = rest ∧
      t.cseq = s.cseq ∧ t.tmp = s.tmp ∧ t.done = s.done

/-- 42_macro_commands.md R119: READFROMB likewise, with a chunk of up to `RBLK` bytes that may wrap. -/
def Obligations.ReadFromBRuns : Prop :=
  ∀ (s : State) a rest st, s.Inv → s.cfgState = .ready → s.params.sampleLag = .none → s.turn = .P → s.phase = .idle →
    s.rsv.valid = false → (a.data.length : Int) ≤ s.freeRegion → s.FarFromHorizon → s.env.source = a :: rest →
    a.fits s.params.rblk = true → ((a.err = .eos ∧ st = .eos) ∨ ∃ x, a.err = .ext x ∧ st = .ext x) →
    ∃ t, execAlone 9 .readFromB s = .next t ∧ t.phase = .idle ∧
      t.pPort.responses = s.pPort.responses ++ [⟨st, narrow a.data.length, 0, []⟩] ∧
      t.pseq.cursor.toInt = s.pseq.cursor.toInt + a.data.length ∧ t.Holds s.pseq.cursor.toInt a.data ∧
      t.env.source = rest ∧ t.cseq = s.cseq ∧ t.rsv = s.rsv ∧ t.tmp = s.tmp ∧ t.done = s.done

/-- 42_macro_commands.md R120, R122 (c): WRITETO on a closed ring, with a sink that takes every view it is given: view after
view of up to `WBLK` bytes the sink is given exactly the unread bytes in order, all are committed, and the answer is
`(EOS, LEN)`. -/
def Obligations.WriteToDrainsClosedRing : Prop :=
  ∀ (s : State) as rest, s.Inv → s.cfgState = .ready → s.params.sampleLag = .none → s.turn = .C → s.phase = .idle →
    s.done = true → s.env.sink = as ++ rest → as.map SinkAnswer.count = viewSizes s.params.wblk s.length.toNat →
    (∀ a ∈ as, a.err = none) →
    ∃ fuel t vs, execAlone fuel .writeTo s = .next t ∧ t.phase = .idle ∧ s.unread = vs.flatten.map some ∧
      vs.map List.length = viewSizes s.params.wblk s.length.toNat ∧
      t.env.delivered = s.env.delivered ++ vs ∧ t.env.sink = rest ∧
      t.cPort.responses = s.cPort.responses ++ [⟨.eos, narrow s.length, 0, []⟩] ∧ t.cseq.cursor = s.pseq.cursor ∧
      t.pseq = s.pseq ∧ t.buf = s.buf ∧ t.done = s.done ∧ t.rsv = s.rsv

/-- 42_macro_commands.md R117, R120, R124: WRITETO with a sink that fails after `k` bytes: the sink's code is answered
"verbatim with partial byte count", and the `k` bytes are committed exactly when `WRITETO_COMMIT_ON_SINK_ERROR` is set. -/
def Obligations.WriteToReportsSinkError : Prop :=
  ∀ (s : State) a rest x, s.Inv → s.cfgState = .ready → s.params.sampleLag = .none → s.turn = .C → s.phase = .idle →
    1 ≤ s.length → s.env.sink = a :: rest → (a.count : Int) ≤ min (s.params.wblk : Int) s.length →
    a.err = some x → 16 ≤ x.toNat →
    ∃ t, execAlone 11 .writeTo s = .next t ∧ t.phase = .idle ∧
      t.cPort.responses = s.cPort.responses ++ [⟨.ext x, narrow a.count, 0, []⟩] ∧
      t.cseq.cursor.toInt = s.cseq.cursor.toInt + (if s.params.commitOnSinkError then (a.count : Int) else 0) ∧
      t.pseq = s.pseq ∧ t.buf = s.buf ∧ t.done = s.done ∧ t.rsv = s.rsv

/-! ### Frames -/

/-- 40_producer_commands.md R104, R105; 10_state.md R38: what a step of a producer command leaves alone. `PSEQ.cursor` is
written only at W4 and U2, `PSEQ.gate` only at G2, the reservation only at V3 and U2. -/
def Obligations.ProducerFrame : Prop :=
  ∀ i (s t : State), isProducer i = true → exec i s = .next t →
    t.cseq = s.cseq ∧ t.done = s.done ∧ t.cwait = s.cwait ∧ t.tmp = s.tmp ∧ t.c = s.c ∧
      t.port (otherPort s.turn) = s.port (otherPort s.turn) ∧ t.turn = s.turn ∧
      t.env.sched = s.env.sched ∧ t.env.sink = s.env.sink ∧ t.env.delivered = s.env.delivered ∧
      (t.port t.turn).script = (s.port s.turn).script ∧
      ((∀ j, s.phase ≠ .run j .W4 ∧ s.phase ≠ .run j .U2) → t.pseq.cursor = s.pseq.cursor) ∧
      ((∀ j, s.phase ≠ .run j .G2) → t.pseq.gate = s.pseq.gate) ∧
      ((∀ j, s.phase ≠ .run j .V3 ∧ s.phase ≠ .run j .U2) → t.rsv = s.rsv) ∧
      ((∀ j, s.phase ≠ .run j .F2 ∧ s.phase ≠ .run j .E1) → t.env.source = s.env.source)

/-- 41_consumer_commands.md R115; 10_state.md R38: what a step of a consumer command leaves alone. `CSEQ.cursor` is written
only at A4 and M3, `CWAIT` only at K3. -/
def Obligations.ConsumerFrame : Prop :=
  ∀ i (s t : State), isConsumer i = true → exec i s = .next t →
    t.pseq = s.pseq ∧ t.done = s.done ∧ t.rsv = s.rsv ∧ t.buf = s.buf ∧ t.p = s.p ∧
      t.port (otherPort s.turn) = s.port (otherPort s.turn) ∧ t.turn = s.turn ∧
      t.env.sched = s.env.sched ∧ t.env.source = s.env.source ∧
      (t.port t.turn).script = (s.port s.turn).script ∧
      ((∀ j, s.phase ≠ .run j .A4 ∧ s.phase ≠ .run j .M3) → t.cseq.cursor = s.cseq.cursor) ∧
      ((∀ j, s.phase ≠ .run j .K3) → t.cwait = s.cwait) ∧
      ((∀ j, s.phase = .run j .K3 → t.cwait = s.cwait + 1)) ∧
      ((∀ j, s.phase ≠ .run j .T2) → t.env.sink = s.env.sink ∧ t.env.delivered = s.env.delivered)

/-- 43_common_commands.md R131: LEN, ID and CLOSE write no register but the `DONE` of CLOSE, and no byte; the other port
and the environment's inputs are untouched. -/
def Obligations.CommonFrame : Prop :=
  ∀ i (s t : State), (i = .len ∨ i = .ident ∨ i = .close) → exec i s = .next t →
    State.SameRegisters { s with done := t.done } t ∧ (i ≠ .close → t.done = s.done) ∧
      t.port (otherPort s.turn) = s.port (otherPort s.turn) ∧ t.turn = s.turn ∧ t.env = s.env ∧
      (t.port t.turn).script = (s.port s.turn).script ∧
      (i ≠ .len → t.p = s.p ∧ t.c = s.c) ∧ (s.turn = .C → t.p = s.p) ∧ (s.turn = .P → t.c = s.c)

/-- 20_memory.md R47, R50 to R52: where a step of any command writes. `BUF` changes only by the run `bufStore` names (the
payload of a WRITE or PUBL at its address), and there it takes the run's bytes; `TMP` changes only below `tmpStore`.
Every other byte reads as before. -/
def Obligations.StoredBytesOnly : Prop :=
  ∀ i (s t : State), exec i s = .next t →
    (s.bufStore i = none → ∀ a, t.buf.read a = s.buf.read a) ∧
      (∀ start v, s.bufStore i = some (start, v) →
        (∀ a, ringCovers s.sizeNat start v.length a = false → t.buf.read a = s.buf.read a) ∧
          (start < s.sizeNat → v.length ≤ s.sizeNat →
            ∀ j, j < v.length → t.buf.read ((start + j) % s.sizeNat) = v[j]?)) ∧
      ∀ a, s.tmpStore ≤ a → t.tmp.read a = s.tmp.read a

/-! ### Invariants -/

/-- The state after reset is sound (10_state.md R40). The straps are the model's choice (log entry 1), and so is the clause
on `ExtInv`: R40 leaves the latches unspecified, and that they hold no external code at reset is log entry 2. -/
def Obligations.ResetIsSound : Prop := State.reset.Inv ∧ State.reset.OperandInv ∧ State.reset.ExtInv

/-- 10_state.md R32, R33, R36, R37, R39; 20_memory.md R46, R58: every step keeps the invariant: legal `SIZE` and `MASK`,
the cursor, gate and reservation bounds, canonical byte spaces with every unread position written, the phase registers
at steps of their commands, and what each label means. (That the bound of R59 covers the count at M2 of WRITETO, a part of
that meaning, leans on log entry 9, DEDUCED. Over a reset, that both spaces are empty after it is log entry 3 and that
both ports are IDLE after a failed configuration is log entry 4, the model's choices.) -/
def Obligations.StepKeepsSoundness : Prop := ∀ s t : State, s.Inv → step s = .next t → t.Inv

/-- 10_state.md R34; 30_encoding.md R77: every step keeps the operands of a command in execution latched. (That a discarded
payload is latched as the empty string is log entry 27, DEDUCED, and that both ports are IDLE after a failed configuration
log entry 4, the model's choice.) -/
def Obligations.OperandsStayLatched : Prop := ∀ s t : State, s.OperandInv → step s = .next t → t.OperandInv

/-- 10_state.md R36: in every reachable state of a configured block `CSEQ.cursor <= PSEQ.cursor` and
`PSEQ.cursor - CSEQ.cursor <= SIZE`, that is `0 <= LEN <= SIZE`. -/
def Obligations.CursorsBoundedWhenReachable : Prop :=
  ∀ s : State, Reachable s → s.cfgState = .ready →
    s.cseq.cursor.toInt ≤ s.pseq.cursor.toInt ∧ s.pseq.cursor.toInt - s.cseq.cursor.toInt ≤ s.size.toInt ∧
      0 ≤ s.length ∧ s.length ≤ s.size.toInt

/-- 10_state.md R37, the spec's own inference (it marks the rule derived): in every reachable state of a configured block
`PSEQ.gate <= CSEQ.cursor`, hence `PSEQ.gate <= PSEQ.cursor`, and `PSEQ.cursor - SIZE <= PSEQ.gate`. -/
def Obligations.GateBoundedWhenReachable : Prop :=
  ∀ s : State, Reachable s → s.cfgState = .ready →
    s.pseq.gate.toInt ≤ s.cseq.cursor.toInt ∧ s.pseq.gate.toInt ≤ s.pseq.cursor.toInt ∧
      s.pseq.cursor.toInt - s.size.toInt ≤ s.pseq.gate.toInt

/-- 10_state.md R19, R28: no step but a reset lowers a cursor or clears `DONE`. -/
def Obligations.CursorsNeverFall : Prop :=
  ∀ s t : State, s.Inv → s.cfgState = .ready → s.resetNext = false → step s = .next t →
    s.pseq.cursor.toInt ≤ t.pseq.cursor.toInt ∧ s.cseq.cursor.toInt ≤ t.cseq.cursor.toInt ∧
      (s.done = true → t.done = true)

/-- 20_memory.md R58: a step that changes a byte of `BUF` changes the image of a position in
`[PSEQ.cursor, CSEQ.cursor + SIZE)`, so no published and unread byte changes. -/
def Obligations.WindowPartition : Prop :=
  ∀ s t : State, s.Inv → s.cfgState = .ready → s.resetNext = false → step s = .next t →
    (∀ a, t.buf.read a ≠ s.buf.read a →
        ∃ q : Int, s.pseq.cursor.toInt ≤ q ∧ q < s.cseq.cursor.toInt + s.size.toInt ∧ a = s.idx (narrow q)) ∧
      ∀ q : Int, s.cseq.cursor.toInt ≤ q → q < s.pseq.cursor.toInt → t.at q = s.at q

/-- 20_memory.md R53, 42_macro_commands.md R125: the stream. Across any step but a reset, the unread bytes followed by
what the step publishes are the bytes it consumes followed by the unread bytes after it: no loss, reordering or
duplication. -/
def Obligations.StreamIsConserved : Prop :=
  ∀ s t : State, s.Inv → s.cfgState = .ready → s.resetNext = false → step s = .next t →
    s.unread ++ s.publishes.map some = s.bytesAt s.cseq.cursor.toInt t.cseq.cursor.toInt ++ t.unread

/-- 20_memory.md R50, R69; 60_exceptions.md R133; 10_state.md R33; 30_encoding.md R77; 42_macro_commands.md R116, R117: from
a sound state no step faults, and it is refused only for what the spec says to refuse: an ill-formed pair, the counter
horizon, a source or sink that breaks its contract (where each is refused: log entries 11, 12 and 13, DEDUCED). -/
def Obligations.SoundStepsNeverFault : Prop :=
  ∀ s : State, s.Inv →
    (∀ f, step s ≠ .fault f) ∧
      ∀ r, step s = .refused r →
        r = .illFormedPair ∨ r = .cursorOverflow ∨ r = .sourceBroken ∨ r = .sinkBroken

/-- 10_state.md R33; 30_encoding.md R71, R76; 40_producer_commands.md R91; 41_consumer_commands.md R106: every command has a
next step. In a sound configured state, with the collaborators' contracts kept (42_macro_commands.md R116, R117) and the
cursors far from the horizon (20_memory.md R69), `exec` of any command answers a next state, both when the command is
accepted (its port IDLE, the reservation admitting it, its pair well-formed) and at every step it can be in. (That a step at F2, E1 or T2 whose call has no answer yet is a next
state that changes nothing is the model's choice, log entry 16.) -/
def Obligations.EveryCommandStepCompletes : Prop :=
  ∀ i (s : State), s.Inv → s.cfgState = .ready → s.FarFromHorizon → s.ContractsKept → accepts s.turn i = true →
    ((s.phase = .idle ∧ admitted s.rsv i = true ∧ i.payloadFits s.size (s.port s.turn).payload = true) ∨
      ∃ l, s.phase = .run i l) →
    ∃ t, exec i s = .next t

/-! ### Reset and configuration -/

/-- 70_reset_and_hazards.md R149, R150: the outcome of the strap checks for every strap and all admissible
parameters. -/
def Obligations.ConfigurationOutcomes : Prop :=
  ∀ (q : Params) (w : Word), q.ok = true →
    (w.toInt < 0 → checkSize q w = .fail .neg 0) ∧
      (w = 0 → checkSize q w = .size (narrow q.defSize)) ∧
      (1 ≤ w.toInt → (∀ k : Nat, w.toInt ≠ 2 ^ k) → checkSize q w = .fail .notPow2 (hintOf q w.toInt)) ∧
      (∀ k : Nat, w.toInt = 2 ^ k → w.toInt < q.minSize → checkSize q w = .fail .tooSmall 0) ∧
      ∀ k : Nat, w.toInt = 2 ^ k → (q.minSize : Int) ≤ w.toInt → checkSize q w = .size w

/-- 70_reset_and_hazards.md R151: `Hint(s)` is the least power of two that is at least `s` and at least `2 * RBLK`, and 0
when `s > 2^62`; with the four worked values. (R151 says "raised to `2 * RBLK`"; that the hint is the least power of two
that reaches it where `2 * RBLK` is none, and has this value for a power of two `s` too, is the model's inference, log
entry 21, DEDUCED.) -/
def Obligations.HintIsLeastAcceptedSize : Prop :=
  (∀ (q : Params) (s : Int), q.ok = true → 1 ≤ s →
      (2 ^ 62 < s → hintOf q s = 0) ∧
        (s ≤ 2 ^ 62 →
          ∃ k : Nat, k ≤ 62 ∧ hintOf q s = 2 ^ k ∧ s ≤ hintOf q s ∧ (q.minSize : Int) ≤ hintOf q s ∧
            ∀ j : Nat, s ≤ 2 ^ j → (q.minSize : Int) ≤ 2 ^ j → hintOf q s ≤ 2 ^ j)) ∧
    hintOf Config.defaultParams 3 = 2048 ∧ hintOf Config.defaultParams 1000 = 2048 ∧
    hintOf Config.defaultParams 3000 = 4096 ∧ hintOf Config.defaultParams 4097 = 8192

/-- 70_reset_and_hazards.md R152, the spec's own inference from R149 to R151: the worked configurations, with `ADDR_BITS`
(00_scope.md R6). -/
def Obligations.WorkedConfigurations : Prop :=
  ∀ (s : State) id, s.params = Config.defaultParams →
    ((resetWith 4096 id s).cfgState = .ready ∧ (resetWith 4096 id s).size = 4096 ∧
        (resetWith 4096 id s).mask = 0xFFF ∧ (resetWith 4096 id s).addrBits = 12) ∧
      ((resetWith 2048 id s).cfgState = .ready ∧ (resetWith 2048 id s).mask = 0x7FF) ∧
      ((resetWith 0 id s).cfgState = .ready ∧ (resetWith 0 id s).size = 1048576 ∧
        (resetWith 0 id s).mask = 0xFFFFF ∧ (resetWith 0 id s).addrBits = 20) ∧
      ((resetWith 1024 id s).cfgState = .cfgFail ∧ (resetWith 1024 id s).cfgErr = .tooSmall) ∧
      ((resetWith 4095 id s).cfgState = .cfgFail ∧ (resetWith 4095 id s).cfgErr = .notPow2 ∧
        (resetWith 4095 id s).hint = 4096) ∧
      ((resetWith 1000 id s).cfgState = .cfgFail ∧ (resetWith 1000 id s).cfgErr = .notPow2 ∧
        (resetWith 1000 id s).hint = 2048) ∧
      ((resetWith (-1) id s).cfgState = .cfgFail ∧ (resetWith (-1) id s).cfgErr = .neg) ∧
      ((resetWith 1 id s).cfgState = .cfgFail ∧ (resetWith 1 id s).cfgErr = .tooSmall)

/-- 10_state.md R40; 70_reset_and_hazards.md R149, R157: a reset whose configuration succeeds, at any time: both ports
IDLE with no response to an abandoned command, cursors, gate, `DONE`, `CWAIT` and the reservation cleared, `SIZE`,
`MASK` and `ID` from the straps, `READY`. (That a reset is one step is the model's choice, log entry 18.) -/
def Obligations.ResetDuringUse : Prop :=
  ∀ (s : State) z id rest w, s.env.sched = .rst z id :: rest → checkSize s.params z = .size w →
    ∃ t, step s = .next t ∧
      t.pseq.cursor = 0 ∧ t.pseq.gate = 0 ∧ t.cseq.cursor = 0 ∧ t.done = false ∧ t.cwait = 0 ∧
      t.rsv.valid = false ∧ t.pPort.phase = .idle ∧ t.cPort.phase = .idle ∧
      t.pPort.responses = s.pPort.responses ∧ t.cPort.responses = s.cPort.responses ∧
      t.size = w ∧ t.mask.toInt = w.toInt - 1 ∧ t.ident = id ∧ t.cfgState = .ready ∧ t.cfgErr = .ok ∧ t.hint = 0 ∧
      t.length = 0 ∧ t.fillState = .empty

/-- 70_reset_and_hazards.md R150; 30_encoding.md R86 case 1: after a configuration that failed the status registers say
why, and every word on either port is answered `ILLEGAL` with no register changed, until a reset succeeds. That both ports
are IDLE after it is the model's choice (log entry 4): R157 abandons the commands in progress, and U4 leaves the registers
open. -/
def Obligations.FailedConfigurationAnswersIllegal : Prop :=
  (∀ (s : State) z id e h, checkSize s.params z = .fail e h →
      (resetWith z id s).cfgState = .cfgFail ∧ (resetWith z id s).cfgErr = e ∧ (resetWith z id s).hint = narrow h ∧
        (resetWith z id s).pPort.phase = .idle ∧ (resetWith z id s).cPort.phase = .idle) ∧
    ∀ (s : State) a lag rest pr prs, s.cfgState = .cfgFail → s.env.sched = .run a lag :: rest →
      (s.port a).phase = .idle → (s.port a).script = pr :: prs →
      ∃ t, step s = .next t ∧ s.SameRegisters t ∧ (t.port a).phase = .idle ∧
        (t.port a).responses = (s.port a).responses ++ [⟨.illegal, 0, 0, []⟩]

/-- 10_state.md R20, R23; 00_scope.md R6: the sequence lines are the size `LINE_BYTES` says. A reset that succeeds lays them
out so and every step keeps it; such a line fills its `LINE_BYTES` exactly when they are whole words that hold the cursor
and the gate slot; and two cursors placed as R23 says, adjacent lines among them, are never in the same aligned block of
up to `LINE_BYTES`. (How a line looks for another `LINE_BYTES` is the model's choice, log entry 10.) -/
def Obligations.SequenceLinesFillTheirBytes : Prop :=
  (∀ (s : State) z id, (resetWith z id s).LineInv) ∧
    (∀ s t : State, s.LineInv → step s = .next t → t.LineInv) ∧
    (∀ (q : Params) (l : SeqLine), l.pad.length = q.padWords → 16 ≤ q.lineBytes → q.lineBytes % 8 = 0 →
      l.bytes.length = q.lineBytes) ∧
    (∀ (q : Params) a, placed q a (a + q.lineBytes) = true) ∧
    ∀ (q : Params) a b size, placed q a b = true → 1 ≤ size → size ≤ q.lineBytes → a / size ≠ b / size

/-! ### Liveness -/

/-- 20_memory.md R67; 43_common_commands.md R130; 42_macro_commands.md R116, R117. Under the fairness premises (a) to (c)
a waiting WRITE, RSVE, READ or PEEK completes once the other agent has advanced its cursor far enough or a port has
executed CLOSE, and an outstanding call of the source or sink ends. With no such advance and no CLOSE the command waits
for ever, fair or not. (What a run is and how the premises read on it is the model's choice, log entry 28, and so is that
a load of `DONE` is never stale, log entry 29.) -/
def Obligations.WaitingCommandsComplete : Prop :=
  (∀ u : Nat → State, IsRun u → Fair u →
    ∀ n,
      (∀ i, ((∃ k, i = .write k) ∨ i = .rsve) →
        ((u n).pPort.phase = .run i .G2 ∨ (u n).pPort.phase = .run i .G3) →
        (∃ m, n ≤ m ∧ ((u m).done = true ∨ (u n).p.wrap.toInt ≤ (u m).cseq.cursor.toInt)) →
        ∃ m r, n ≤ m ∧ (u m).pPort.phase = .idle ∧ (u m).pPort.responses = (u n).pPort.responses ++ [r]) ∧
      (∀ i, ((∃ cap, i = .read cap) ∨ ∃ k, i = .peek k) →
        ((u n).cPort.phase = .run i .K2 ∨ (u n).cPort.phase = .run i .K3) →
        (∃ m, n ≤ m ∧ ((u m).done = true ∨ (u n).c.cpos.toInt < (u m).pseq.cursor.toInt)) →
        ∃ m r, n ≤ m ∧ (u m).cPort.phase = .idle ∧ (u m).cPort.responses = (u n).cPort.responses ++ [r]) ∧
      ((u n).pPort.phase = .run .readFrom .F2 → ∃ m, n ≤ m ∧ (u m).pPort.phase = .run .readFrom .U1) ∧
      ((u n).pPort.phase = .run .readFromB .E1 → ∃ m, n ≤ m ∧ (u m).pPort.phase = .run .readFromB .W1) ∧
      ((u n).cPort.phase = .run .writeTo .T2 → ∃ m, n ≤ m ∧ (u m).cPort.phase = .run .writeTo .T3)) ∧
    ∀ u : Nat → State, IsRun u →
      ∀ n,
        (∀ i, (isWriting i = true ∨ isReserving i = true) →
          ((u n).pPort.phase = .run i .G2 ∨ (u n).pPort.phase = .run i .G3) →
          (∀ m, n ≤ m → (u m).done = false ∧ (u m).cseq.cursor.toInt < (u n).p.wrap.toInt) →
          ∀ m, n ≤ m → (u m).pPort.phase = .run i .G2 ∨ (u m).pPort.phase = .run i .G3) ∧
        ∀ i, ((∃ cap, i = .read cap) ∨ (∃ k, i = .peek k) ∨ i = .writeTo) →
          ((u n).cPort.phase = .run i .K2 ∨ (u n).cPort.phase = .run i .K3) →
          (∀ m, n ≤ m → (u m).done = false ∧ (u m).pseq.cursor.toInt ≤ (u n).c.cpos.toInt) →
          ∀ m, n ≤ m → (u m).cPort.phase = .run i .K2 ∨ (u m).cPort.phase = .run i .K3

end
end

