-- ==== Sys2Proof/Laws/Word.lean ====
section
/-! SUPPORT. Words read as signed integers, and the index projection (spec 00_scope.md R7, 20_memory.md R48, R69). -/

namespace Sys2Proof

/-- Narrowing loses nothing on an `int64`. -/
theorem toInt_narrow (x : Int) (h1 : minInt64 ≤ x) (h2 : x ≤ maxInt64) : (narrow x).toInt = x := by
  unfold minInt64 at h1
  unfold maxInt64 at h2
  unfold narrow
  rw [BitVec.toInt_ofInt]
  apply Int.bmod_eq_of_le <;> norm_num <;> omega

/-- A word read as an integer is an `int64`. -/
theorem minInt64_le_toInt (w : Word) : minInt64 ≤ w.toInt := by
  have := BitVec.le_toInt w
  unfold minInt64
  norm_num at this
  omega

/-- A word read as an integer is an `int64`. -/
theorem toInt_le_maxInt64 (w : Word) : w.toInt ≤ maxInt64 := by
  have := @BitVec.toInt_lt 64 w
  unfold maxInt64
  norm_num at this
  omega

/-- A word is the narrowing of its own value. -/
@[simp] theorem narrow_toInt (w : Word) : narrow w.toInt = w := by
  simp [narrow]

/-- A word below `2^63` reads the same signed and unsigned. -/
theorem toInt_eq_toNat_of_lt (w : Word) (h : w.toNat < 9223372036854775808) : w.toInt = w.toNat := by
  rw [BitVec.toInt_eq_toNat_cond]
  split
  · rfl
  · norm_num at *; omega

/-- A word that is not negative reads the same signed and unsigned. -/
theorem toNat_of_nonneg (w : Word) (h : 0 ≤ w.toInt) : (w.toNat : Int) = w.toInt := by
  rw [BitVec.toInt_eq_toNat_cond] at *
  split at h
  · simp [*]
  · have := w.isLt; norm_num at *; omega

namespace Machine

/-- `idx(s)` never passes `MASK` (R48). -/
theorem idxOf_le (mask pos : Word) : idxOf mask pos ≤ mask.toNat := by
  unfold idxOf
  rw [BitVec.toNat_and]
  exact Nat.and_le_right

/-- For a power-of-two ring and a position that is not negative, `idx(s) = s mod SIZE` (R48). -/
theorem idxOf_eq_mod (mask pos : Word) (k : Nat) (hm : mask.toNat = 2 ^ k - 1) :
    idxOf mask pos = pos.toNat % 2 ^ k := by
  unfold idxOf
  rw [BitVec.toNat_and, hm, Nat.and_two_pow_sub_one_eq_mod]

end Machine

end Sys2Proof
end

