-- ==== Sys2Proof/Laws/Memory.lean ====
section
/-! SUPPORT. The laws of the byte spaces: a read after a write, that every operation keeps the canonical form, and what
each of them can do (spec 20_memory.md R50 to R52). -/

namespace Sys2Proof.Machine

/-! ### Cells of a run -/

theorem mem_cellsAt (v : List Byte) (a : Nat) (x : Host.Cell) (h : x ∈ cellsAt a v) :
    a ≤ x.1 ∧ x.1 < a + v.length := by
  induction v generalizing a with
  | nil => simp [cellsAt] at h
  | cons b v ih =>
    simp only [cellsAt, List.mem_cons] at h
    rcases h with rfl | h
    · simp
    · have := ih (a + 1) h
      simp only [List.length_cons]
      omega

theorem cellsAt_wf (v : List Byte) (a : Nat) : Memory.wf (cellsAt a v) := by
  induction v generalizing a with
  | nil => simp [cellsAt]
  | cons b v ih =>
    simp only [cellsAt, List.pairwise_cons]
    exact ⟨fun x hx => (mem_cellsAt v (a + 1) x hx).1, ih (a + 1)⟩

theorem find_cellsAt (v : List Byte) (a x : Nat) :
    ((cellsAt a v).find? (fun y => y.1 == x)).map Prod.snd = if a ≤ x then v[x - a]? else none := by
  induction v generalizing a with
  | nil => simp [cellsAt]
  | cons b v ih =>
    by_cases h : a = x
    · subst h; simp [cellsAt]
    · have hne : (a == x) = false := by simpa using h
      simp only [cellsAt, List.find?_cons, hne, ih]
      by_cases h1 : a ≤ x
      · have h2 : a + 1 ≤ x := by omega
        have h3 : x - a = (x - (a + 1)) + 1 := by omega
        simp only [h1, h2, if_true, h3, List.getElem?_cons_succ]
      · have h2 : ¬ a + 1 ≤ x := by omega
        simp [h1, h2]

/-! ### Reading and writing -/

/-- Reading is looking the cell up. -/
theorem Memory.read_eq (m : Memory) (a : Nat) : m.read a = (m.find? (fun x => x.1 == a)).map Prod.snd := by
  unfold Memory.read Memory.unlisted
  cases m.find? (fun x => x.1 == a) <;> rfl

/-- A write keeps the canonical form. -/
theorem Memory.write_wf (m : Memory) (a : Nat) (v : List Byte) (h : m.wf) : (m.write a v).wf := by
  unfold Memory.write
  rw [Memory.wf, List.pairwise_append, List.pairwise_append]
  refine ⟨⟨h.filter _, cellsAt_wf v a, ?_⟩, h.filter _, ?_⟩
  · intro x hx y hy
    have hx' := (List.mem_filter.1 hx).2
    have hy' := mem_cellsAt v a y hy
    simp only [decide_eq_true_eq] at hx'
    omega
  · intro x hx y hy
    have hy' := (List.mem_filter.1 hy).2
    simp only [decide_eq_true_eq] at hy'
    rcases List.mem_append.1 hx with hx | hx
    · have hx' := (List.mem_filter.1 hx).2
      simp only [decide_eq_true_eq] at hx'
      omega
    · have hx' := mem_cellsAt v a x hx
      omega

theorem Memory.find_filter_ne (m : Memory) (p : Host.Cell → Bool) (x : Nat)
    (h : ∀ y : Host.Cell, y.1 = x → p y = false) : (m.filter p).find? (fun y => y.1 == x) = none := by
  rw [List.find?_eq_none]
  intro y hy
  have hp := (List.mem_filter.1 hy).2
  intro hx
  rw [h y (by simpa using hx)] at hp
  exact Bool.noConfusion hp

theorem Memory.find_filter_eq (m : Memory) (p : Host.Cell → Bool) (x : Nat)
    (h : ∀ y : Host.Cell, y.1 = x → p y = true) :
    (m.filter p).find? (fun y => y.1 == x) = m.find? (fun y => y.1 == x) := by
  induction m with
  | nil => rfl
  | cons y m ih =>
    by_cases hy : y.1 = x
    · simp [h y hy, hy]
    · have hne : (y.1 == x) = false := by simpa using hy
      cases hp : p y <;> simp [hp, hne, ih]

/-- A read inside the written run gives the byte written. -/
theorem Memory.read_write_in (m : Memory) (a : Nat) (v : List Byte) (x : Nat) (h1 : a ≤ x)
    (h2 : x < a + v.length) : (m.write a v).read x = v[x - a]? := by
  have hsome : v[x - a]? = some v[x - a] := List.getElem?_eq_getElem (by omega)
  have h3 := find_cellsAt v a x
  rw [if_pos h1, hsome] at h3
  rw [Memory.read_eq]
  unfold Memory.write
  rw [List.append_assoc, List.find?_append, List.find?_append,
    Memory.find_filter_ne m _ x (by intro y hy; simp; omega)]
  cases hf : (cellsAt a v).find? (fun y => y.1 == x) with
  | none => rw [hf] at h3; simp at h3
  | some c => rw [hf] at h3; simpa [hsome] using h3

/-- A read outside the written run gives what it gave before. -/
theorem Memory.read_write_out (m : Memory) (a : Nat) (v : List Byte) (x : Nat)
    (h : x < a ∨ a + v.length ≤ x) : (m.write a v).read x = m.read x := by
  have hc : (cellsAt a v).find? (fun y => y.1 == x) = none := by
    rw [List.find?_eq_none]
    intro y hy
    have := mem_cellsAt v a y hy
    simp only [beq_iff_eq]
    omega
  rw [Memory.read_eq, Memory.read_eq]
  unfold Memory.write
  rw [List.append_assoc, List.find?_append, List.find?_append, hc]
  rcases h with h | h
  · rw [Memory.find_filter_eq m _ x (by intro y hy; simp; omega),
      Memory.find_filter_ne m _ x (by intro y hy; simp; omega)]
    simp
  · rw [Memory.find_filter_ne m _ x (by intro y hy; simp; omega),
      Memory.find_filter_eq m _ x (by intro y hy; simp; omega)]
    simp

/-- A cell of a written space is an old cell or lies in the written run. -/
theorem Memory.mem_write (m : Memory) (a : Nat) (v : List Byte) (x : Host.Cell) (h : x ∈ m.write a v) :
    x ∈ m ∨ (a ≤ x.1 ∧ x.1 < a + v.length) := by
  unfold Memory.write at h
  rcases List.mem_append.1 h with h | h
  · rcases List.mem_append.1 h with h | h
    · exact .inl (List.mem_filter.1 h).1
    · exact .inr (mem_cellsAt v a x h)
  · exact .inl (List.mem_filter.1 h).1

/-- A run that can be read has as many bytes as asked for. -/
theorem Memory.readRun_length (m : Memory) (a n : Nat) (v : List Byte) (h : m.readRun a n = some v) :
    v.length = n := by
  unfold Memory.readRun at h
  simp only at h
  split at h
  · next hk =>
    have := congrArg List.length hk
    simp only [List.length_map, List.length_range'] at this
    rw [Option.some.injEq] at h
    rw [← h, List.length_map, this]
  · cases h

theorem Memory.find_window (m : Memory) (a n x : Nat) (h1 : a ≤ x) (h2 : x < a + n) :
    (m.window a n).find? (fun y => y.1 == x) = m.find? (fun y => y.1 == x) :=
  Memory.find_filter_eq m _ x (by intro y hy; simp; omega)

theorem find_of_keys (w : Memory) (a n i : Nat) (h : w.map Prod.fst = List.range' a n) (hi : i < n) :
    (w.find? (fun y => y.1 == a + i)).map Prod.snd = (w.map Prod.snd)[i]? := by
  induction w generalizing a n i with
  | nil => cases n with
    | zero => omega
    | succ n => simp [List.range'_succ] at h
  | cons y w ih =>
    cases n with
    | zero => omega
    | succ n =>
      simp only [List.map_cons, List.range'_succ, List.cons.injEq] at h
      cases i with
      | zero => simp [h.1]
      | succ i =>
        have hne : (y.1 == a + (i + 1)) = false := by simp; omega
        have := ih (a + 1) n i h.2 (by omega)
        have he : a + 1 + i = a + (i + 1) := by omega
        rw [he] at this
        simp only [List.find?_cons, hne, this, List.map_cons, List.getElem?_cons_succ]

/-- What a run reads: byte `i` of it is the byte at index `a + i` (R50). -/
theorem Memory.readRun_byte (m : Memory) (a n i : Nat) (v : List Byte) (h : m.readRun a n = some v) (hi : i < n) :
    m.read (a + i) = v[i]? := by
  unfold Memory.readRun at h
  simp only at h
  split at h
  · next hk =>
    rw [Option.some.injEq] at h
    rw [Memory.read_eq, ← Memory.find_window m a n (a + i) (by omega) (by omega), ← h]
    exact find_of_keys _ a n i hk hi
  · cases h

theorem keys_of_dense (w : Memory) (a n : Nat) (hw : w.wf) (hin : ∀ y ∈ w, a ≤ y.1 ∧ y.1 < a + n)
    (hall : ∀ i, i < n → ∃ y ∈ w, y.1 = a + i) : w.map Prod.fst = List.range' a n := by
  induction n generalizing a w with
  | zero =>
    cases w with
    | nil => rfl
    | cons y w => have := hin y (by simp); omega
  | succ n ih =>
    cases w with
    | nil => obtain ⟨y, hy, _⟩ := hall 0 (by omega); simp at hy
    | cons y w =>
      simp only [List.pairwise_cons] at hw
      have hy : y.1 = a := by
        obtain ⟨z, hz, hza⟩ := hall 0 (by omega)
        have h1 := (hin y (by simp)).1
        rcases List.mem_cons.1 hz with rfl | hz
        · omega
        · have := hw.1 z hz; omega
      rw [List.map_cons, List.range'_succ, hy, ih w (a + 1) hw.2]
      · intro z hz
        have h1 := hw.1 z hz
        have h2 := (hin z (by simp [hz])).2
        omega
      · intro i hi
        obtain ⟨z, hz, hza⟩ := hall (i + 1) (by omega)
        rcases List.mem_cons.1 hz with rfl | hz
        · omega
        · exact ⟨z, hz, by omega⟩

/-- A run can be read when each of its bytes can (R50). -/
theorem Memory.readRun_isSome (m : Memory) (a n : Nat) (hw : m.wf)
    (h : ∀ i, i < n → (m.read (a + i)).isSome = true) : ∃ v, m.readRun a n = some v := by
  have hk : (m.window a n).map Prod.fst = List.range' a n := by
    apply keys_of_dense
    · exact hw.filter _
    · intro y hy
      have := (List.mem_filter.1 hy).2
      simpa using this
    · intro i hi
      have hs := h i hi
      rw [Memory.read_eq, Option.isSome_map] at hs
      obtain ⟨y, hy⟩ := Option.isSome_iff_exists.1 hs
      have h1 := List.find?_some hy
      have h2 := List.mem_of_find?_eq_some hy
      refine ⟨y, ?_, by simpa using h1⟩
      unfold Memory.window
      rw [List.mem_filter]
      refine ⟨h2, ?_⟩
      have : y.1 = a + i := by simpa using h1
      simp; omega
  unfold Memory.readRun
  simp only [hk, if_true]
  exact ⟨_, rfl⟩

/-! ### The bounded operations -/

/-- What `memRead` can do. -/
theorem memRead_ok (m : Memory) (size a n : Nat) (v : List Byte) (h : memRead m size a n = .ok v) :
    a + n ≤ size ∧ m.readRun a n = some v := by
  unfold memRead at h
  split at h
  · next hb =>
    split at h
    · next hr => cases h; exact ⟨hb, hr⟩
    · cases h
  · cases h

/-- What `memWrite` can do. -/
theorem memWrite_ok (m m' : Memory) (size a : Nat) (v : List Byte) (h : memWrite m size a v = .ok m') :
    a + v.length ≤ size ∧ m' = m.write a v := by
  unfold memWrite at h
  split at h
  · next hb => cases h; exact ⟨hb, rfl⟩
  · cases h

/-- What `ringCopy` can do: one write, or two when the run wraps (R51). -/
theorem ringCopy_ok (m m' : Memory) (size start : Nat) (v : List Byte) (h : ringCopy m size start v = .ok m') :
    (v.length ≤ size - start ∧ start + v.length ≤ size ∧ m' = m.write start v) ∨
      (size - start < v.length ∧ start + (size - start) ≤ size ∧ v.length - (size - start) ≤ size ∧
        m' = (m.write start (v.take (size - start))).write 0 (v.drop (size - start))) := by
  unfold ringCopy at h
  simp only at h
  split at h
  · cases h
  · next m1 h1 =>
    obtain ⟨hb, rfl⟩ := memWrite_ok _ _ _ _ _ h1
    split at h
    · next hk =>
      obtain ⟨hb2, rfl⟩ := memWrite_ok _ _ _ _ _ h
      have he : min v.length (size - start) = size - start := by omega
      rw [he] at hb hb2 ⊢
      simp only [List.length_take, List.length_drop] at hb hb2
      exact .inr ⟨by omega, by omega, by omega, rfl⟩
    · next hk =>
      cases h
      have he : min v.length (size - start) = v.length := by omega
      rw [he, List.take_length] at hb ⊢
      exact .inl ⟨by omega, hb, rfl⟩

/-- Where `ringCopy` succeeds: the start is inside the ring and the run no longer than it. -/
theorem ringCopy_total (m : Memory) (size start : Nat) (v : List Byte) (h1 : start < size)
    (h2 : v.length ≤ size) : ∃ m', ringCopy m size start v = .ok m' := by
  have hb : start + (v.take (min v.length (size - start))).length ≤ size := by
    rw [List.length_take]; omega
  have hb2 : 0 + (v.drop (min v.length (size - start))).length ≤ size := by
    rw [List.length_drop]; omega
  unfold ringCopy
  simp only [memWrite, hb, hb2, if_true]
  split
  · exact ⟨_, rfl⟩
  · exact ⟨_, rfl⟩

/-- `ringCopy` keeps the canonical form. -/
theorem ringCopy_wf (m m' : Memory) (size start : Nat) (v : List Byte) (hw : m.wf)
    (h : ringCopy m size start v = .ok m') : m'.wf := by
  rcases ringCopy_ok m m' size start v h with ⟨-, -, rfl⟩ | ⟨-, -, -, rfl⟩
  · exact Memory.write_wf _ _ _ hw
  · exact Memory.write_wf _ _ _ (Memory.write_wf _ _ _ hw)

/-- `ringCopy` writes nothing outside the ring. -/
theorem ringCopy_bound (m m' : Memory) (size start : Nat) (v : List Byte) (hb : ∀ x ∈ m, x.1 < size)
    (h : ringCopy m size start v = .ok m') : ∀ x ∈ m', x.1 < size := by
  intro x hx
  rcases ringCopy_ok m m' size start v h with ⟨-, h2, rfl⟩ | ⟨h1, h2, h3, rfl⟩
  · rcases Memory.mem_write _ _ _ _ hx with hx | hx
    · exact hb x hx
    · omega
  · rcases Memory.mem_write _ _ _ _ hx with hx | hx
    · rcases Memory.mem_write _ _ _ _ hx with hx | hx
      · exact hb x hx
      · rw [List.length_take] at hx; omega
    · rw [List.length_drop] at hx; omega

/-- `ringCopy` leaves every cell outside its image alone (R51). -/
theorem ringCopy_read_out (m m' : Memory) (size start a : Nat) (v : List Byte)
    (h : ringCopy m size start v = .ok m') (ha : ringCovers size start v.length a = false) :
    m'.read a = m.read a := by
  simp only [ringCovers, Bool.or_eq_false_iff, Bool.and_eq_false_iff, decide_eq_false_iff_not] at ha
  rcases ringCopy_ok m m' size start v h with ⟨h1, h2, rfl⟩ | ⟨h1, h2, h3, rfl⟩
  · exact Memory.read_write_out _ _ _ _ (by omega)
  · rw [Memory.read_write_out _ _ _ _ (by rw [List.length_drop]; omega),
      Memory.read_write_out _ _ _ _ (by rw [List.length_take]; omega)]

/-- Byte `i` of the run goes to index `(start + i) mod size` (R51). -/
theorem ringCopy_read_in (m m' : Memory) (size start i : Nat) (v : List Byte) (h1 : start < size)
    (h2 : v.length ≤ size) (hi : i < v.length) (h : ringCopy m size start v = .ok m') :
    m'.read ((start + i) % size) = v[i]? := by
  rcases ringCopy_ok m m' size start v h with ⟨h3, h4, rfl⟩ | ⟨h3, h4, h5, rfl⟩
  · rw [Nat.mod_eq_of_lt (by omega), Memory.read_write_in _ _ _ _ (by omega) (by omega)]
    congr 1; omega
  · by_cases hc : start + i < size
    · rw [Nat.mod_eq_of_lt hc, Memory.read_write_out _ _ _ _ (by rw [List.length_drop]; omega),
        Memory.read_write_in _ _ _ _ (by omega) (by rw [List.length_take]; omega)]
      rw [List.getElem?_take]
      have : start + i - start = i := by omega
      rw [this, if_pos (by omega)]
    · have hm : (start + i) % size = i - (size - start) := by
        rw [Nat.mod_eq_sub_mod (by omega), Nat.mod_eq_of_lt (by omega)]; omega
      rw [hm, Memory.read_write_in _ _ _ _ (by omega) (by rw [List.length_drop]; omega), List.getElem?_drop]
      congr 1; omega

end Sys2Proof.Machine
end

