-- ==== Sys2Proof/Laws/State.lean ====
section
/-! SUPPORT. One lemma per field of State per named update: what the update makes of the field. -/

namespace Sys2Proof.Machine

/-! ### storePseq -/

@[simp] theorem storePseq_pseq (s : State) (v : Word) : (s.storePseq v).pseq = { s.pseq with cursor := v } := rfl
@[simp] theorem storePseq_cseq (s : State) (v : Word) : (s.storePseq v).cseq = s.cseq := rfl
@[simp] theorem storePseq_done (s : State) (v : Word) : (s.storePseq v).done = s.done := rfl
@[simp] theorem storePseq_size (s : State) (v : Word) : (s.storePseq v).size = s.size := rfl
@[simp] theorem storePseq_mask (s : State) (v : Word) : (s.storePseq v).mask = s.mask := rfl
@[simp] theorem storePseq_ident (s : State) (v : Word) : (s.storePseq v).ident = s.ident := rfl
@[simp] theorem storePseq_cwait (s : State) (v : Word) : (s.storePseq v).cwait = s.cwait := rfl
@[simp] theorem storePseq_cfgState (s : State) (v : Word) : (s.storePseq v).cfgState = s.cfgState := rfl
@[simp] theorem storePseq_cfgErr (s : State) (v : Word) : (s.storePseq v).cfgErr = s.cfgErr := rfl
@[simp] theorem storePseq_hint (s : State) (v : Word) : (s.storePseq v).hint = s.hint := rfl
@[simp] theorem storePseq_rsv (s : State) (v : Word) : (s.storePseq v).rsv = s.rsv := rfl
@[simp] theorem storePseq_buf (s : State) (v : Word) : (s.storePseq v).buf = s.buf := rfl
@[simp] theorem storePseq_tmp (s : State) (v : Word) : (s.storePseq v).tmp = s.tmp := rfl
@[simp] theorem storePseq_p (s : State) (v : Word) : (s.storePseq v).p = s.p := rfl
@[simp] theorem storePseq_c (s : State) (v : Word) : (s.storePseq v).c = s.c := rfl
@[simp] theorem storePseq_pPort (s : State) (v : Word) : (s.storePseq v).pPort = s.pPort := rfl
@[simp] theorem storePseq_cPort (s : State) (v : Word) : (s.storePseq v).cPort = s.cPort := rfl
@[simp] theorem storePseq_turn (s : State) (v : Word) : (s.storePseq v).turn = s.turn := rfl
@[simp] theorem storePseq_lag (s : State) (v : Word) : (s.storePseq v).lag = s.lag := rfl
@[simp] theorem storePseq_env (s : State) (v : Word) : (s.storePseq v).env = s.env := rfl
@[simp] theorem storePseq_params (s : State) (v : Word) : (s.storePseq v).params = s.params := rfl

/-! ### setGate -/

@[simp] theorem setGate_pseq (s : State) (v : Word) : (s.setGate v).pseq = { s.pseq with gate := v } := rfl
@[simp] theorem setGate_cseq (s : State) (v : Word) : (s.setGate v).cseq = s.cseq := rfl
@[simp] theorem setGate_done (s : State) (v : Word) : (s.setGate v).done = s.done := rfl
@[simp] theorem setGate_size (s : State) (v : Word) : (s.setGate v).size = s.size := rfl
@[simp] theorem setGate_mask (s : State) (v : Word) : (s.setGate v).mask = s.mask := rfl
@[simp] theorem setGate_ident (s : State) (v : Word) : (s.setGate v).ident = s.ident := rfl
@[simp] theorem setGate_cwait (s : State) (v : Word) : (s.setGate v).cwait = s.cwait := rfl
@[simp] theorem setGate_cfgState (s : State) (v : Word) : (s.setGate v).cfgState = s.cfgState := rfl
@[simp] theorem setGate_cfgErr (s : State) (v : Word) : (s.setGate v).cfgErr = s.cfgErr := rfl
@[simp] theorem setGate_hint (s : State) (v : Word) : (s.setGate v).hint = s.hint := rfl
@[simp] theorem setGate_rsv (s : State) (v : Word) : (s.setGate v).rsv = s.rsv := rfl
@[simp] theorem setGate_buf (s : State) (v : Word) : (s.setGate v).buf = s.buf := rfl
@[simp] theorem setGate_tmp (s : State) (v : Word) : (s.setGate v).tmp = s.tmp := rfl
@[simp] theorem setGate_p (s : State) (v : Word) : (s.setGate v).p = s.p := rfl
@[simp] theorem setGate_c (s : State) (v : Word) : (s.setGate v).c = s.c := rfl
@[simp] theorem setGate_pPort (s : State) (v : Word) : (s.setGate v).pPort = s.pPort := rfl
@[simp] theorem setGate_cPort (s : State) (v : Word) : (s.setGate v).cPort = s.cPort := rfl
@[simp] theorem setGate_turn (s : State) (v : Word) : (s.setGate v).turn = s.turn := rfl
@[simp] theorem setGate_lag (s : State) (v : Word) : (s.setGate v).lag = s.lag := rfl
@[simp] theorem setGate_env (s : State) (v : Word) : (s.setGate v).env = s.env := rfl
@[simp] theorem setGate_params (s : State) (v : Word) : (s.setGate v).params = s.params := rfl

/-! ### storeCseq -/

@[simp] theorem storeCseq_pseq (s : State) (v : Word) : (s.storeCseq v).pseq = s.pseq := rfl
@[simp] theorem storeCseq_cseq (s : State) (v : Word) : (s.storeCseq v).cseq = { s.cseq with cursor := v } := rfl
@[simp] theorem storeCseq_done (s : State) (v : Word) : (s.storeCseq v).done = s.done := rfl
@[simp] theorem storeCseq_size (s : State) (v : Word) : (s.storeCseq v).size = s.size := rfl
@[simp] theorem storeCseq_mask (s : State) (v : Word) : (s.storeCseq v).mask = s.mask := rfl
@[simp] theorem storeCseq_ident (s : State) (v : Word) : (s.storeCseq v).ident = s.ident := rfl
@[simp] theorem storeCseq_cwait (s : State) (v : Word) : (s.storeCseq v).cwait = s.cwait := rfl
@[simp] theorem storeCseq_cfgState (s : State) (v : Word) : (s.storeCseq v).cfgState = s.cfgState := rfl
@[simp] theorem storeCseq_cfgErr (s : State) (v : Word) : (s.storeCseq v).cfgErr = s.cfgErr := rfl
@[simp] theorem storeCseq_hint (s : State) (v : Word) : (s.storeCseq v).hint = s.hint := rfl
@[simp] theorem storeCseq_rsv (s : State) (v : Word) : (s.storeCseq v).rsv = s.rsv := rfl
@[simp] theorem storeCseq_buf (s : State) (v : Word) : (s.storeCseq v).buf = s.buf := rfl
@[simp] theorem storeCseq_tmp (s : State) (v : Word) : (s.storeCseq v).tmp = s.tmp := rfl
@[simp] theorem storeCseq_p (s : State) (v : Word) : (s.storeCseq v).p = s.p := rfl
@[simp] theorem storeCseq_c (s : State) (v : Word) : (s.storeCseq v).c = s.c := rfl
@[simp] theorem storeCseq_pPort (s : State) (v : Word) : (s.storeCseq v).pPort = s.pPort := rfl
@[simp] theorem storeCseq_cPort (s : State) (v : Word) : (s.storeCseq v).cPort = s.cPort := rfl
@[simp] theorem storeCseq_turn (s : State) (v : Word) : (s.storeCseq v).turn = s.turn := rfl
@[simp] theorem storeCseq_lag (s : State) (v : Word) : (s.storeCseq v).lag = s.lag := rfl
@[simp] theorem storeCseq_env (s : State) (v : Word) : (s.storeCseq v).env = s.env := rfl
@[simp] theorem storeCseq_params (s : State) (v : Word) : (s.storeCseq v).params = s.params := rfl

/-! ### setDone -/

@[simp] theorem setDone_pseq (s : State) : (s.setDone).pseq = s.pseq := rfl
@[simp] theorem setDone_cseq (s : State) : (s.setDone).cseq = s.cseq := rfl
@[simp] theorem setDone_done (s : State) : (s.setDone).done = true := rfl
@[simp] theorem setDone_size (s : State) : (s.setDone).size = s.size := rfl
@[simp] theorem setDone_mask (s : State) : (s.setDone).mask = s.mask := rfl
@[simp] theorem setDone_ident (s : State) : (s.setDone).ident = s.ident := rfl
@[simp] theorem setDone_cwait (s : State) : (s.setDone).cwait = s.cwait := rfl
@[simp] theorem setDone_cfgState (s : State) : (s.setDone).cfgState = s.cfgState := rfl
@[simp] theorem setDone_cfgErr (s : State) : (s.setDone).cfgErr = s.cfgErr := rfl
@[simp] theorem setDone_hint (s : State) : (s.setDone).hint = s.hint := rfl
@[simp] theorem setDone_rsv (s : State) : (s.setDone).rsv = s.rsv := rfl
@[simp] theorem setDone_buf (s : State) : (s.setDone).buf = s.buf := rfl
@[simp] theorem setDone_tmp (s : State) : (s.setDone).tmp = s.tmp := rfl
@[simp] theorem setDone_p (s : State) : (s.setDone).p = s.p := rfl
@[simp] theorem setDone_c (s : State) : (s.setDone).c = s.c := rfl
@[simp] theorem setDone_pPort (s : State) : (s.setDone).pPort = s.pPort := rfl
@[simp] theorem setDone_cPort (s : State) : (s.setDone).cPort = s.cPort := rfl
@[simp] theorem setDone_turn (s : State) : (s.setDone).turn = s.turn := rfl
@[simp] theorem setDone_lag (s : State) : (s.setDone).lag = s.lag := rfl
@[simp] theorem setDone_env (s : State) : (s.setDone).env = s.env := rfl
@[simp] theorem setDone_params (s : State) : (s.setDone).params = s.params := rfl

/-! ### bumpCwait -/

@[simp] theorem bumpCwait_pseq (s : State) : (s.bumpCwait).pseq = s.pseq := rfl
@[simp] theorem bumpCwait_cseq (s : State) : (s.bumpCwait).cseq = s.cseq := rfl
@[simp] theorem bumpCwait_done (s : State) : (s.bumpCwait).done = s.done := rfl
@[simp] theorem bumpCwait_size (s : State) : (s.bumpCwait).size = s.size := rfl
@[simp] theorem bumpCwait_mask (s : State) : (s.bumpCwait).mask = s.mask := rfl
@[simp] theorem bumpCwait_ident (s : State) : (s.bumpCwait).ident = s.ident := rfl
@[simp] theorem bumpCwait_cwait (s : State) : (s.bumpCwait).cwait = s.cwait + 1 := rfl
@[simp] theorem bumpCwait_cfgState (s : State) : (s.bumpCwait).cfgState = s.cfgState := rfl
@[simp] theorem bumpCwait_cfgErr (s : State) : (s.bumpCwait).cfgErr = s.cfgErr := rfl
@[simp] theorem bumpCwait_hint (s : State) : (s.bumpCwait).hint = s.hint := rfl
@[simp] theorem bumpCwait_rsv (s : State) : (s.bumpCwait).rsv = s.rsv := rfl
@[simp] theorem bumpCwait_buf (s : State) : (s.bumpCwait).buf = s.buf := rfl
@[simp] theorem bumpCwait_tmp (s : State) : (s.bumpCwait).tmp = s.tmp := rfl
@[simp] theorem bumpCwait_p (s : State) : (s.bumpCwait).p = s.p := rfl
@[simp] theorem bumpCwait_c (s : State) : (s.bumpCwait).c = s.c := rfl
@[simp] theorem bumpCwait_pPort (s : State) : (s.bumpCwait).pPort = s.pPort := rfl
@[simp] theorem bumpCwait_cPort (s : State) : (s.bumpCwait).cPort = s.cPort := rfl
@[simp] theorem bumpCwait_turn (s : State) : (s.bumpCwait).turn = s.turn := rfl
@[simp] theorem bumpCwait_lag (s : State) : (s.bumpCwait).lag = s.lag := rfl
@[simp] theorem bumpCwait_env (s : State) : (s.bumpCwait).env = s.env := rfl
@[simp] theorem bumpCwait_params (s : State) : (s.bumpCwait).params = s.params := rfl

/-! ### setRsv -/

@[simp] theorem setRsv_pseq (s : State) (r : Reservation) : (s.setRsv r).pseq = s.pseq := rfl
@[simp] theorem setRsv_cseq (s : State) (r : Reservation) : (s.setRsv r).cseq = s.cseq := rfl
@[simp] theorem setRsv_done (s : State) (r : Reservation) : (s.setRsv r).done = s.done := rfl
@[simp] theorem setRsv_size (s : State) (r : Reservation) : (s.setRsv r).size = s.size := rfl
@[simp] theorem setRsv_mask (s : State) (r : Reservation) : (s.setRsv r).mask = s.mask := rfl
@[simp] theorem setRsv_ident (s : State) (r : Reservation) : (s.setRsv r).ident = s.ident := rfl
@[simp] theorem setRsv_cwait (s : State) (r : Reservation) : (s.setRsv r).cwait = s.cwait := rfl
@[simp] theorem setRsv_cfgState (s : State) (r : Reservation) : (s.setRsv r).cfgState = s.cfgState := rfl
@[simp] theorem setRsv_cfgErr (s : State) (r : Reservation) : (s.setRsv r).cfgErr = s.cfgErr := rfl
@[simp] theorem setRsv_hint (s : State) (r : Reservation) : (s.setRsv r).hint = s.hint := rfl
@[simp] theorem setRsv_rsv (s : State) (r : Reservation) : (s.setRsv r).rsv = r := rfl
@[simp] theorem setRsv_buf (s : State) (r : Reservation) : (s.setRsv r).buf = s.buf := rfl
@[simp] theorem setRsv_tmp (s : State) (r : Reservation) : (s.setRsv r).tmp = s.tmp := rfl
@[simp] theorem setRsv_p (s : State) (r : Reservation) : (s.setRsv r).p = s.p := rfl
@[simp] theorem setRsv_c (s : State) (r : Reservation) : (s.setRsv r).c = s.c := rfl
@[simp] theorem setRsv_pPort (s : State) (r : Reservation) : (s.setRsv r).pPort = s.pPort := rfl
@[simp] theorem setRsv_cPort (s : State) (r : Reservation) : (s.setRsv r).cPort = s.cPort := rfl
@[simp] theorem setRsv_turn (s : State) (r : Reservation) : (s.setRsv r).turn = s.turn := rfl
@[simp] theorem setRsv_lag (s : State) (r : Reservation) : (s.setRsv r).lag = s.lag := rfl
@[simp] theorem setRsv_env (s : State) (r : Reservation) : (s.setRsv r).env = s.env := rfl
@[simp] theorem setRsv_params (s : State) (r : Reservation) : (s.setRsv r).params = s.params := rfl

/-! ### setBuf -/

@[simp] theorem setBuf_pseq (s : State) (m : Memory) : (s.setBuf m).pseq = s.pseq := rfl
@[simp] theorem setBuf_cseq (s : State) (m : Memory) : (s.setBuf m).cseq = s.cseq := rfl
@[simp] theorem setBuf_done (s : State) (m : Memory) : (s.setBuf m).done = s.done := rfl
@[simp] theorem setBuf_size (s : State) (m : Memory) : (s.setBuf m).size = s.size := rfl
@[simp] theorem setBuf_mask (s : State) (m : Memory) : (s.setBuf m).mask = s.mask := rfl
@[simp] theorem setBuf_ident (s : State) (m : Memory) : (s.setBuf m).ident = s.ident := rfl
@[simp] theorem setBuf_cwait (s : State) (m : Memory) : (s.setBuf m).cwait = s.cwait := rfl
@[simp] theorem setBuf_cfgState (s : State) (m : Memory) : (s.setBuf m).cfgState = s.cfgState := rfl
@[simp] theorem setBuf_cfgErr (s : State) (m : Memory) : (s.setBuf m).cfgErr = s.cfgErr := rfl
@[simp] theorem setBuf_hint (s : State) (m : Memory) : (s.setBuf m).hint = s.hint := rfl
@[simp] theorem setBuf_rsv (s : State) (m : Memory) : (s.setBuf m).rsv = s.rsv := rfl
@[simp] theorem setBuf_buf (s : State) (m : Memory) : (s.setBuf m).buf = m := rfl
@[simp] theorem setBuf_tmp (s : State) (m : Memory) : (s.setBuf m).tmp = s.tmp := rfl
@[simp] theorem setBuf_p (s : State) (m : Memory) : (s.setBuf m).p = s.p := rfl
@[simp] theorem setBuf_c (s : State) (m : Memory) : (s.setBuf m).c = s.c := rfl
@[simp] theorem setBuf_pPort (s : State) (m : Memory) : (s.setBuf m).pPort = s.pPort := rfl
@[simp] theorem setBuf_cPort (s : State) (m : Memory) : (s.setBuf m).cPort = s.cPort := rfl
@[simp] theorem setBuf_turn (s : State) (m : Memory) : (s.setBuf m).turn = s.turn := rfl
@[simp] theorem setBuf_lag (s : State) (m : Memory) : (s.setBuf m).lag = s.lag := rfl
@[simp] theorem setBuf_env (s : State) (m : Memory) : (s.setBuf m).env = s.env := rfl
@[simp] theorem setBuf_params (s : State) (m : Memory) : (s.setBuf m).params = s.params := rfl

/-! ### setTmp -/

@[simp] theorem setTmp_pseq (s : State) (m : Memory) : (s.setTmp m).pseq = s.pseq := rfl
@[simp] theorem setTmp_cseq (s : State) (m : Memory) : (s.setTmp m).cseq = s.cseq := rfl
@[simp] theorem setTmp_done (s : State) (m : Memory) : (s.setTmp m).done = s.done := rfl
@[simp] theorem setTmp_size (s : State) (m : Memory) : (s.setTmp m).size = s.size := rfl
@[simp] theorem setTmp_mask (s : State) (m : Memory) : (s.setTmp m).mask = s.mask := rfl
@[simp] theorem setTmp_ident (s : State) (m : Memory) : (s.setTmp m).ident = s.ident := rfl
@[simp] theorem setTmp_cwait (s : State) (m : Memory) : (s.setTmp m).cwait = s.cwait := rfl
@[simp] theorem setTmp_cfgState (s : State) (m : Memory) : (s.setTmp m).cfgState = s.cfgState := rfl
@[simp] theorem setTmp_cfgErr (s : State) (m : Memory) : (s.setTmp m).cfgErr = s.cfgErr := rfl
@[simp] theorem setTmp_hint (s : State) (m : Memory) : (s.setTmp m).hint = s.hint := rfl
@[simp] theorem setTmp_rsv (s : State) (m : Memory) : (s.setTmp m).rsv = s.rsv := rfl
@[simp] theorem setTmp_buf (s : State) (m : Memory) : (s.setTmp m).buf = s.buf := rfl
@[simp] theorem setTmp_tmp (s : State) (m : Memory) : (s.setTmp m).tmp = m := rfl
@[simp] theorem setTmp_p (s : State) (m : Memory) : (s.setTmp m).p = s.p := rfl
@[simp] theorem setTmp_c (s : State) (m : Memory) : (s.setTmp m).c = s.c := rfl
@[simp] theorem setTmp_pPort (s : State) (m : Memory) : (s.setTmp m).pPort = s.pPort := rfl
@[simp] theorem setTmp_cPort (s : State) (m : Memory) : (s.setTmp m).cPort = s.cPort := rfl
@[simp] theorem setTmp_turn (s : State) (m : Memory) : (s.setTmp m).turn = s.turn := rfl
@[simp] theorem setTmp_lag (s : State) (m : Memory) : (s.setTmp m).lag = s.lag := rfl
@[simp] theorem setTmp_env (s : State) (m : Memory) : (s.setTmp m).env = s.env := rfl
@[simp] theorem setTmp_params (s : State) (m : Memory) : (s.setTmp m).params = s.params := rfl

/-! ### setP -/

@[simp] theorem setP_pseq (s : State) (x : PLatches) : (s.setP x).pseq = s.pseq := rfl
@[simp] theorem setP_cseq (s : State) (x : PLatches) : (s.setP x).cseq = s.cseq := rfl
@[simp] theorem setP_done (s : State) (x : PLatches) : (s.setP x).done = s.done := rfl
@[simp] theorem setP_size (s : State) (x : PLatches) : (s.setP x).size = s.size := rfl
@[simp] theorem setP_mask (s : State) (x : PLatches) : (s.setP x).mask = s.mask := rfl
@[simp] theorem setP_ident (s : State) (x : PLatches) : (s.setP x).ident = s.ident := rfl
@[simp] theorem setP_cwait (s : State) (x : PLatches) : (s.setP x).cwait = s.cwait := rfl
@[simp] theorem setP_cfgState (s : State) (x : PLatches) : (s.setP x).cfgState = s.cfgState := rfl
@[simp] theorem setP_cfgErr (s : State) (x : PLatches) : (s.setP x).cfgErr = s.cfgErr := rfl
@[simp] theorem setP_hint (s : State) (x : PLatches) : (s.setP x).hint = s.hint := rfl
@[simp] theorem setP_rsv (s : State) (x : PLatches) : (s.setP x).rsv = s.rsv := rfl
@[simp] theorem setP_buf (s : State) (x : PLatches) : (s.setP x).buf = s.buf := rfl
@[simp] theorem setP_tmp (s : State) (x : PLatches) : (s.setP x).tmp = s.tmp := rfl
@[simp] theorem setP_p (s : State) (x : PLatches) : (s.setP x).p = x := rfl
@[simp] theorem setP_c (s : State) (x : PLatches) : (s.setP x).c = s.c := rfl
@[simp] theorem setP_pPort (s : State) (x : PLatches) : (s.setP x).pPort = s.pPort := rfl
@[simp] theorem setP_cPort (s : State) (x : PLatches) : (s.setP x).cPort = s.cPort := rfl
@[simp] theorem setP_turn (s : State) (x : PLatches) : (s.setP x).turn = s.turn := rfl
@[simp] theorem setP_lag (s : State) (x : PLatches) : (s.setP x).lag = s.lag := rfl
@[simp] theorem setP_env (s : State) (x : PLatches) : (s.setP x).env = s.env := rfl
@[simp] theorem setP_params (s : State) (x : PLatches) : (s.setP x).params = s.params := rfl

/-! ### setC -/

@[simp] theorem setC_pseq (s : State) (x : CLatches) : (s.setC x).pseq = s.pseq := rfl
@[simp] theorem setC_cseq (s : State) (x : CLatches) : (s.setC x).cseq = s.cseq := rfl
@[simp] theorem setC_done (s : State) (x : CLatches) : (s.setC x).done = s.done := rfl
@[simp] theorem setC_size (s : State) (x : CLatches) : (s.setC x).size = s.size := rfl
@[simp] theorem setC_mask (s : State) (x : CLatches) : (s.setC x).mask = s.mask := rfl
@[simp] theorem setC_ident (s : State) (x : CLatches) : (s.setC x).ident = s.ident := rfl
@[simp] theorem setC_cwait (s : State) (x : CLatches) : (s.setC x).cwait = s.cwait := rfl
@[simp] theorem setC_cfgState (s : State) (x : CLatches) : (s.setC x).cfgState = s.cfgState := rfl
@[simp] theorem setC_cfgErr (s : State) (x : CLatches) : (s.setC x).cfgErr = s.cfgErr := rfl
@[simp] theorem setC_hint (s : State) (x : CLatches) : (s.setC x).hint = s.hint := rfl
@[simp] theorem setC_rsv (s : State) (x : CLatches) : (s.setC x).rsv = s.rsv := rfl
@[simp] theorem setC_buf (s : State) (x : CLatches) : (s.setC x).buf = s.buf := rfl
@[simp] theorem setC_tmp (s : State) (x : CLatches) : (s.setC x).tmp = s.tmp := rfl
@[simp] theorem setC_p (s : State) (x : CLatches) : (s.setC x).p = s.p := rfl
@[simp] theorem setC_c (s : State) (x : CLatches) : (s.setC x).c = x := rfl
@[simp] theorem setC_pPort (s : State) (x : CLatches) : (s.setC x).pPort = s.pPort := rfl
@[simp] theorem setC_cPort (s : State) (x : CLatches) : (s.setC x).cPort = s.cPort := rfl
@[simp] theorem setC_turn (s : State) (x : CLatches) : (s.setC x).turn = s.turn := rfl
@[simp] theorem setC_lag (s : State) (x : CLatches) : (s.setC x).lag = s.lag := rfl
@[simp] theorem setC_env (s : State) (x : CLatches) : (s.setC x).env = s.env := rfl
@[simp] theorem setC_params (s : State) (x : CLatches) : (s.setC x).params = s.params := rfl

/-! ### setEnv -/

@[simp] theorem setEnv_pseq (s : State) (e : Env) : (s.setEnv e).pseq = s.pseq := rfl
@[simp] theorem setEnv_cseq (s : State) (e : Env) : (s.setEnv e).cseq = s.cseq := rfl
@[simp] theorem setEnv_done (s : State) (e : Env) : (s.setEnv e).done = s.done := rfl
@[simp] theorem setEnv_size (s : State) (e : Env) : (s.setEnv e).size = s.size := rfl
@[simp] theorem setEnv_mask (s : State) (e : Env) : (s.setEnv e).mask = s.mask := rfl
@[simp] theorem setEnv_ident (s : State) (e : Env) : (s.setEnv e).ident = s.ident := rfl
@[simp] theorem setEnv_cwait (s : State) (e : Env) : (s.setEnv e).cwait = s.cwait := rfl
@[simp] theorem setEnv_cfgState (s : State) (e : Env) : (s.setEnv e).cfgState = s.cfgState := rfl
@[simp] theorem setEnv_cfgErr (s : State) (e : Env) : (s.setEnv e).cfgErr = s.cfgErr := rfl
@[simp] theorem setEnv_hint (s : State) (e : Env) : (s.setEnv e).hint = s.hint := rfl
@[simp] theorem setEnv_rsv (s : State) (e : Env) : (s.setEnv e).rsv = s.rsv := rfl
@[simp] theorem setEnv_buf (s : State) (e : Env) : (s.setEnv e).buf = s.buf := rfl
@[simp] theorem setEnv_tmp (s : State) (e : Env) : (s.setEnv e).tmp = s.tmp := rfl
@[simp] theorem setEnv_p (s : State) (e : Env) : (s.setEnv e).p = s.p := rfl
@[simp] theorem setEnv_c (s : State) (e : Env) : (s.setEnv e).c = s.c := rfl
@[simp] theorem setEnv_pPort (s : State) (e : Env) : (s.setEnv e).pPort = s.pPort := rfl
@[simp] theorem setEnv_cPort (s : State) (e : Env) : (s.setEnv e).cPort = s.cPort := rfl
@[simp] theorem setEnv_turn (s : State) (e : Env) : (s.setEnv e).turn = s.turn := rfl
@[simp] theorem setEnv_lag (s : State) (e : Env) : (s.setEnv e).lag = s.lag := rfl
@[simp] theorem setEnv_env (s : State) (e : Env) : (s.setEnv e).env = e := rfl
@[simp] theorem setEnv_params (s : State) (e : Env) : (s.setEnv e).params = s.params := rfl

/-! ### Ports -/

@[simp] theorem port_P (s : State) : s.port .P = s.pPort := rfl
@[simp] theorem port_C (s : State) : s.port .C = s.cPort := rfl
@[simp] theorem setPort_P_pPort (s : State) (x : PortState) : (s.setPort .P x).pPort = x := rfl
@[simp] theorem setPort_P_cPort (s : State) (x : PortState) : (s.setPort .P x).cPort = s.cPort := rfl
@[simp] theorem setPort_C_pPort (s : State) (x : PortState) : (s.setPort .C x).pPort = s.pPort := rfl
@[simp] theorem setPort_C_cPort (s : State) (x : PortState) : (s.setPort .C x).cPort = x := rfl
@[simp] theorem setPort_pseq (s : State) (a : Port) (x : PortState) : (s.setPort a x).pseq = s.pseq := by cases a <;> rfl
@[simp] theorem setPort_cseq (s : State) (a : Port) (x : PortState) : (s.setPort a x).cseq = s.cseq := by cases a <;> rfl
@[simp] theorem setPort_done (s : State) (a : Port) (x : PortState) : (s.setPort a x).done = s.done := by cases a <;> rfl
@[simp] theorem setPort_size (s : State) (a : Port) (x : PortState) : (s.setPort a x).size = s.size := by cases a <;> rfl
@[simp] theorem setPort_mask (s : State) (a : Port) (x : PortState) : (s.setPort a x).mask = s.mask := by cases a <;> rfl
@[simp] theorem setPort_ident (s : State) (a : Port) (x : PortState) : (s.setPort a x).ident = s.ident := by cases a <;> rfl
@[simp] theorem setPort_cwait (s : State) (a : Port) (x : PortState) : (s.setPort a x).cwait = s.cwait := by cases a <;> rfl
@[simp] theorem setPort_cfgState (s : State) (a : Port) (x : PortState) : (s.setPort a x).cfgState = s.cfgState := by cases a <;> rfl
@[simp] theorem setPort_cfgErr (s : State) (a : Port) (x : PortState) : (s.setPort a x).cfgErr = s.cfgErr := by cases a <;> rfl
@[simp] theorem setPort_hint (s : State) (a : Port) (x : PortState) : (s.setPort a x).hint = s.hint := by cases a <;> rfl
@[simp] theorem setPort_rsv (s : State) (a : Port) (x : PortState) : (s.setPort a x).rsv = s.rsv := by cases a <;> rfl
@[simp] theorem setPort_buf (s : State) (a : Port) (x : PortState) : (s.setPort a x).buf = s.buf := by cases a <;> rfl
@[simp] theorem setPort_tmp (s : State) (a : Port) (x : PortState) : (s.setPort a x).tmp = s.tmp := by cases a <;> rfl
@[simp] theorem setPort_p (s : State) (a : Port) (x : PortState) : (s.setPort a x).p = s.p := by cases a <;> rfl
@[simp] theorem setPort_c (s : State) (a : Port) (x : PortState) : (s.setPort a x).c = s.c := by cases a <;> rfl
@[simp] theorem setPort_turn (s : State) (a : Port) (x : PortState) : (s.setPort a x).turn = s.turn := by cases a <;> rfl
@[simp] theorem setPort_lag (s : State) (a : Port) (x : PortState) : (s.setPort a x).lag = s.lag := by cases a <;> rfl
@[simp] theorem setPort_env (s : State) (a : Port) (x : PortState) : (s.setPort a x).env = s.env := by cases a <;> rfl
@[simp] theorem setPort_params (s : State) (a : Port) (x : PortState) : (s.setPort a x).params = s.params := by cases a <;> rfl

@[simp] theorem port_setPort (s : State) (a : Port) (x : PortState) : (s.setPort a x).port a = x := by cases a <;> rfl

/-! ### goto -/

@[simp] theorem goto_pseq (s : State) (l : Label) : (s.goto l).pseq = s.pseq := by simp [State.goto]
@[simp] theorem goto_cseq (s : State) (l : Label) : (s.goto l).cseq = s.cseq := by simp [State.goto]
@[simp] theorem goto_done (s : State) (l : Label) : (s.goto l).done = s.done := by simp [State.goto]
@[simp] theorem goto_size (s : State) (l : Label) : (s.goto l).size = s.size := by simp [State.goto]
@[simp] theorem goto_mask (s : State) (l : Label) : (s.goto l).mask = s.mask := by simp [State.goto]
@[simp] theorem goto_ident (s : State) (l : Label) : (s.goto l).ident = s.ident := by simp [State.goto]
@[simp] theorem goto_cwait (s : State) (l : Label) : (s.goto l).cwait = s.cwait := by simp [State.goto]
@[simp] theorem goto_cfgState (s : State) (l : Label) : (s.goto l).cfgState = s.cfgState := by simp [State.goto]
@[simp] theorem goto_cfgErr (s : State) (l : Label) : (s.goto l).cfgErr = s.cfgErr := by simp [State.goto]
@[simp] theorem goto_hint (s : State) (l : Label) : (s.goto l).hint = s.hint := by simp [State.goto]
@[simp] theorem goto_rsv (s : State) (l : Label) : (s.goto l).rsv = s.rsv := by simp [State.goto]
@[simp] theorem goto_buf (s : State) (l : Label) : (s.goto l).buf = s.buf := by simp [State.goto]
@[simp] theorem goto_tmp (s : State) (l : Label) : (s.goto l).tmp = s.tmp := by simp [State.goto]
@[simp] theorem goto_p (s : State) (l : Label) : (s.goto l).p = s.p := by simp [State.goto]
@[simp] theorem goto_c (s : State) (l : Label) : (s.goto l).c = s.c := by simp [State.goto]
@[simp] theorem goto_turn (s : State) (l : Label) : (s.goto l).turn = s.turn := by simp [State.goto]
@[simp] theorem goto_lag (s : State) (l : Label) : (s.goto l).lag = s.lag := by simp [State.goto]
@[simp] theorem goto_env (s : State) (l : Label) : (s.goto l).env = s.env := by simp [State.goto]
@[simp] theorem goto_params (s : State) (l : Label) : (s.goto l).params = s.params := by simp [State.goto]

/-! ### respond -/

@[simp] theorem respond_pseq (s : State) (r : Response) : (s.respond r).pseq = s.pseq := by simp [State.respond]
@[simp] theorem respond_cseq (s : State) (r : Response) : (s.respond r).cseq = s.cseq := by simp [State.respond]
@[simp] theorem respond_done (s : State) (r : Response) : (s.respond r).done = s.done := by simp [State.respond]
@[simp] theorem respond_size (s : State) (r : Response) : (s.respond r).size = s.size := by simp [State.respond]
@[simp] theorem respond_mask (s : State) (r : Response) : (s.respond r).mask = s.mask := by simp [State.respond]
@[simp] theorem respond_ident (s : State) (r : Response) : (s.respond r).ident = s.ident := by simp [State.respond]
@[simp] theorem respond_cwait (s : State) (r : Response) : (s.respond r).cwait = s.cwait := by simp [State.respond]
@[simp] theorem respond_cfgState (s : State) (r : Response) : (s.respond r).cfgState = s.cfgState := by simp [State.respond]
@[simp] theorem respond_cfgErr (s : State) (r : Response) : (s.respond r).cfgErr = s.cfgErr := by simp [State.respond]
@[simp] theorem respond_hint (s : State) (r : Response) : (s.respond r).hint = s.hint := by simp [State.respond]
@[simp] theorem respond_rsv (s : State) (r : Response) : (s.respond r).rsv = s.rsv := by simp [State.respond]
@[simp] theorem respond_buf (s : State) (r : Response) : (s.respond r).buf = s.buf := by simp [State.respond]
@[simp] theorem respond_tmp (s : State) (r : Response) : (s.respond r).tmp = s.tmp := by simp [State.respond]
@[simp] theorem respond_p (s : State) (r : Response) : (s.respond r).p = s.p := by simp [State.respond]
@[simp] theorem respond_c (s : State) (r : Response) : (s.respond r).c = s.c := by simp [State.respond]
@[simp] theorem respond_turn (s : State) (r : Response) : (s.respond r).turn = s.turn := by simp [State.respond]
@[simp] theorem respond_lag (s : State) (r : Response) : (s.respond r).lag = s.lag := by simp [State.respond]
@[simp] theorem respond_env (s : State) (r : Response) : (s.respond r).env = s.env := by simp [State.respond]
@[simp] theorem respond_params (s : State) (r : Response) : (s.respond r).params = s.params := by simp [State.respond]

/-! ### noteSample -/

@[simp] theorem noteSample_pseq (s : State) : (s.noteSample).pseq = s.pseq := by simp [State.noteSample]
@[simp] theorem noteSample_cseq (s : State) : (s.noteSample).cseq = s.cseq := by simp [State.noteSample]
@[simp] theorem noteSample_done (s : State) : (s.noteSample).done = s.done := by simp [State.noteSample]
@[simp] theorem noteSample_size (s : State) : (s.noteSample).size = s.size := by simp [State.noteSample]
@[simp] theorem noteSample_mask (s : State) : (s.noteSample).mask = s.mask := by simp [State.noteSample]
@[simp] theorem noteSample_ident (s : State) : (s.noteSample).ident = s.ident := by simp [State.noteSample]
@[simp] theorem noteSample_cwait (s : State) : (s.noteSample).cwait = s.cwait := by simp [State.noteSample]
@[simp] theorem noteSample_cfgState (s : State) : (s.noteSample).cfgState = s.cfgState := by simp [State.noteSample]
@[simp] theorem noteSample_cfgErr (s : State) : (s.noteSample).cfgErr = s.cfgErr := by simp [State.noteSample]
@[simp] theorem noteSample_hint (s : State) : (s.noteSample).hint = s.hint := by simp [State.noteSample]
@[simp] theorem noteSample_rsv (s : State) : (s.noteSample).rsv = s.rsv := by simp [State.noteSample]
@[simp] theorem noteSample_buf (s : State) : (s.noteSample).buf = s.buf := by simp [State.noteSample]
@[simp] theorem noteSample_tmp (s : State) : (s.noteSample).tmp = s.tmp := by simp [State.noteSample]
@[simp] theorem noteSample_p (s : State) : (s.noteSample).p = s.p := by simp [State.noteSample]
@[simp] theorem noteSample_c (s : State) : (s.noteSample).c = s.c := by simp [State.noteSample]
@[simp] theorem noteSample_turn (s : State) : (s.noteSample).turn = s.turn := by simp [State.noteSample]
@[simp] theorem noteSample_lag (s : State) : (s.noteSample).lag = s.lag := by simp [State.noteSample]
@[simp] theorem noteSample_env (s : State) : (s.noteSample).env = s.env := by simp [State.noteSample]
@[simp] theorem noteSample_params (s : State) : (s.noteSample).params = s.params := by simp [State.noteSample]

/-! ### raiseFloor -/

@[simp] theorem raiseFloor_pseq (s : State) : (s.raiseFloor).pseq = s.pseq := by simp [State.raiseFloor]
@[simp] theorem raiseFloor_cseq (s : State) : (s.raiseFloor).cseq = s.cseq := by simp [State.raiseFloor]
@[simp] theorem raiseFloor_done (s : State) : (s.raiseFloor).done = s.done := by simp [State.raiseFloor]
@[simp] theorem raiseFloor_size (s : State) : (s.raiseFloor).size = s.size := by simp [State.raiseFloor]
@[simp] theorem raiseFloor_mask (s : State) : (s.raiseFloor).mask = s.mask := by simp [State.raiseFloor]
@[simp] theorem raiseFloor_ident (s : State) : (s.raiseFloor).ident = s.ident := by simp [State.raiseFloor]
@[simp] theorem raiseFloor_cwait (s : State) : (s.raiseFloor).cwait = s.cwait := by simp [State.raiseFloor]
@[simp] theorem raiseFloor_cfgState (s : State) : (s.raiseFloor).cfgState = s.cfgState := by simp [State.raiseFloor]
@[simp] theorem raiseFloor_cfgErr (s : State) : (s.raiseFloor).cfgErr = s.cfgErr := by simp [State.raiseFloor]
@[simp] theorem raiseFloor_hint (s : State) : (s.raiseFloor).hint = s.hint := by simp [State.raiseFloor]
@[simp] theorem raiseFloor_rsv (s : State) : (s.raiseFloor).rsv = s.rsv := by simp [State.raiseFloor]
@[simp] theorem raiseFloor_buf (s : State) : (s.raiseFloor).buf = s.buf := by simp [State.raiseFloor]
@[simp] theorem raiseFloor_tmp (s : State) : (s.raiseFloor).tmp = s.tmp := by simp [State.raiseFloor]
@[simp] theorem raiseFloor_p (s : State) : (s.raiseFloor).p = s.p := by simp [State.raiseFloor]
@[simp] theorem raiseFloor_c (s : State) : (s.raiseFloor).c = s.c := by simp [State.raiseFloor]
@[simp] theorem raiseFloor_turn (s : State) : (s.raiseFloor).turn = s.turn := by simp [State.raiseFloor]
@[simp] theorem raiseFloor_lag (s : State) : (s.raiseFloor).lag = s.lag := by simp [State.raiseFloor]
@[simp] theorem raiseFloor_env (s : State) : (s.raiseFloor).env = s.env := by simp [State.raiseFloor]
@[simp] theorem raiseFloor_params (s : State) : (s.raiseFloor).params = s.params := by simp [State.raiseFloor]

/-! ### acceptedPort -/

@[simp] theorem acceptedPort_phase (s : State) : s.acceptedPort.phase = s.phase := rfl
@[simp] theorem acceptedPort_cmd (s : State) : s.acceptedPort.cmd = (s.port s.turn).cmd := rfl
@[simp] theorem acceptedPort_payload (s : State) : s.acceptedPort.payload = (s.port s.turn).payload := rfl
@[simp] theorem acceptedPort_responses (s : State) : s.acceptedPort.responses = (s.port s.turn).responses := rfl
@[simp] theorem acceptedPort_script (s : State) : s.acceptedPort.script = (s.port s.turn).script := rfl

/-- The start of an inner command touches the bound of its own port only. -/
theorem raiseFloor_port (s : State) : s.raiseFloor.port s.turn = s.acceptedPort := by
  simp [State.raiseFloor]

@[simp] theorem raiseFloor_phase (s : State) : s.raiseFloor.phase = s.phase := by
  rw [State.phase, raiseFloor_turn, raiseFloor_port]
  rfl

/-- `phase <- L` on the port whose step it is. -/
theorem goto_port (s : State) (l : Label) :
    (s.goto l).port s.turn = { s.port s.turn with phase := (s.port s.turn).phase.withLabel l } := by
  simp [State.goto]

/-- A response leaves the port IDLE and stands last among its responses. -/
theorem respond_port (s : State) (r : Response) :
    (s.respond r).port s.turn =
      { s.port s.turn with phase := .idle, responses := (s.port s.turn).responses ++ [r] } := by
  simp [State.respond]

/-- What a step of one agent does to its port leaves the other port alone. -/
theorem setPort_port_ne (s : State) (a b : Port) (x : PortState) (h : a ≠ b) : (s.setPort a x).port b = s.port b := by
  cases a <;> cases b <;> first | rfl | exact absurd rfl h

end Sys2Proof.Machine
end

