-- ==== Sys2Proof/Laws/Ops.lean ====
section
/-! SUPPORT. One lemma per shared operation: what it can do when it answers a next state, or what it computes. Later proofs
cite these and do not unfold the operations. -/

namespace Sys2Proof.Machine

/-! ### Positions, parameters and sizes -/

/-- What `SizeInv` says in one form: `SIZE` is at least 1, fits, and `idx` is the remainder by it (20_memory.md R48). -/
theorem SizeInv.facts {s : State} (h : s.SizeInv) :
    s.size.toInt = s.sizeNat ∧ 1 ≤ s.sizeNat ∧ s.sizeNat ≤ 4611686018427387904 ∧ 2 * s.params.rblk ≤ s.sizeNat ∧
      (∀ q : Word, s.idx q < s.sizeNat) ∧ ∀ q : Word, 0 ≤ q.toInt → s.idx q = q.toInt.toNat % s.sizeNat := by
  obtain ⟨⟨k, hk, hs, hm⟩, hmin⟩ := h
  have hle : (2 : Nat) ^ k ≤ 2 ^ 62 := Nat.pow_le_pow_right (by norm_num) hk
  norm_num at hle
  have hpos : 1 ≤ 2 ^ k := Nat.one_le_two_pow
  have e1 := toInt_eq_toNat_of_lt s.size (by omega)
  have e2 : s.sizeNat = s.size.toNat := by simp [State.sizeNat, e1]
  refine ⟨by rw [e1, e2], by omega, by omega, by rw [e2]; exact hmin, fun q => ?_, fun q hq => ?_⟩
  · have := idxOf_le s.mask q
    rw [State.idx]
    omega
  · have := toNat_of_nonneg q hq
    rw [State.idx, idxOf_eq_mod _ _ k hm, e2, hs, ← this, Int.toNat_natCast]

/-- `SIZE = 2^ADDR_BITS` (00_scope.md R6). -/
theorem SizeInv.addrBits {s : State} (h : s.SizeInv) : s.sizeNat = 2 ^ s.addrBits ∧ s.addrBits ≤ 62 := by
  obtain ⟨⟨k, hk, hs, hm⟩, hmin⟩ := h
  have e : s.sizeNat = 2 ^ k := by
    have hle : (2 : Nat) ^ k ≤ 2 ^ 62 := Nat.pow_le_pow_right (by norm_num) hk
    norm_num at hle
    rw [State.sizeNat, toInt_eq_toNat_of_lt s.size (by omega), Int.toNat_natCast, hs]
  rw [State.addrBits, e, Nat.log2_two_pow]
  exact ⟨rfl, hk⟩

/-- Raising a bound picks the larger of the two (20_memory.md R59). -/
theorem toInt_maxWord (x y : Word) : (maxWord x y).toInt = max x.toInt y.toInt := by
  unfold maxWord
  split <;> omega

/-- What acceptance does to the bound of R59: it covers the old bound and the other cursor. -/
theorem acceptedPort_floor (s : State) :
    s.acceptedPort.floor.toInt = max (s.port s.turn).floor.toInt (s.otherCursor s.turn).toInt :=
  toInt_maxWord _ _

/-- The byte at a position that is an `int64` and not negative. -/
theorem at_eq_read {s : State} (h : s.SizeInv) (q : Int) (h1 : 0 ≤ q) (h2 : q ≤ maxInt64) :
    s.at q = s.buf.read (q.toNat % s.sizeNat) := by
  have e : (narrow q).toInt = q := toInt_narrow q (by unfold minInt64; omega) h2
  rw [State.at, (SizeInv.facts h).2.2.2.2.2 (narrow q) (by omega), e]

/-- Two positions less than `n` apart never share an index modulo `n` (20_memory.md R70). -/
theorem mod_ne_of_lt_of_lt_add {n a b : Nat} (h1 : a < b) (h2 : b < a + n) : a % n ≠ b % n := by
  intro h
  have h3 := (Nat.modEq_iff_dvd' (by omega : a ≤ b)).1 h
  have := Nat.le_of_dvd (by omega) h3
  omega

/-- A covered cell is the image of a position of the run (20_memory.md R49). -/
theorem ringCovers_image (size start n a : Nat) (hs : start < size) (hn : n ≤ size)
    (h : ringCovers size start n a = true) : ∃ i, i < n ∧ a = (start + i) % size := by
  simp only [ringCovers, Bool.or_eq_true, Bool.and_eq_true, decide_eq_true_eq] at h
  rcases h with h | h
  · refine ⟨a - start, by omega, ?_⟩
    have e : start + (a - start) = a := by omega
    rw [e, Nat.mod_eq_of_lt]
    omega
  · refine ⟨a + (size - start), by omega, ?_⟩
    have e : start + (a + (size - start)) = a + size := by omega
    rw [e, Nat.add_mod_right, Nat.mod_eq_of_lt]
    omega

/-- A run that does not reach past the end is one write. -/
theorem ringCopy_contiguous (m : Memory) (size start : Nat) (v : List Byte) (h : start + v.length ≤ size) :
    ringCopy m size start v = .ok (m.write start v) := by
  have e : min v.length (size - start) = v.length := by omega
  simp [ringCopy, memWrite, e, h]

/-- What `Params.ok` says. -/
theorem Params.ok_facts {q : Params} (h : q.ok = true) :
    1 ≤ q.rblk ∧ 1 ≤ q.wblk ∧ q.wblk ≤ 2 * q.rblk ∧ 2 * q.rblk ≤ q.defSize ∧ ∃ k, k < 63 ∧ q.defSize = 2 ^ k := by
  simp only [Params.ok, Bool.and_eq_true, decide_eq_true_eq, List.any_eq_true, List.mem_range, beq_iff_eq] at h
  unfold Params.minSize at h
  obtain ⟨⟨⟨⟨⟨h1, h2⟩, h3⟩, -⟩, h5⟩, k, hk, he⟩ := h
  exact ⟨h1, h2, h3, h5, k, hk, he⟩

/-- A word that passes the power-of-two test is a power of two of at most `2^62` (70_reset_and_hazards.md R149). -/
theorem pow2_of_isPow2 (w : Word) (h : isPow2 w = true) : ∃ k, k ≤ 62 ∧ w.toNat = 2 ^ k := by
  simp only [isPow2, Bool.and_eq_true, decide_eq_true_eq] at h
  obtain ⟨h1, h2⟩ := h
  have e := toNat_of_nonneg w (by omega)
  have hlt := toInt_le_maxInt64 w
  have hn : w.toNat &&& (w.toNat - 1) = 0 := by
    have := congrArg BitVec.toNat h2
    rw [BitVec.toNat_and, BitVec.toNat_sub_of_le] at this
    · simpa using this
    · rw [BitVec.le_def]; simp; omega
  have hk : w.toNat = 2 ^ w.toNat.log2 := by
    by_contra hne
    have hl := Nat.log2_self_le (n := w.toNat) (by omega)
    have hu := Nat.lt_log2_self (n := w.toNat)
    have t1 : w.toNat.testBit w.toNat.log2 = true := Nat.testBit_of_two_pow_le_and_two_pow_add_one_gt hl hu
    have t2 : (w.toNat - 1).testBit w.toNat.log2 = true :=
      Nat.testBit_of_two_pow_le_and_two_pow_add_one_gt (by omega) (by omega)
    have := congrArg (fun x => Nat.testBit x w.toNat.log2) hn
    simp [Nat.testBit_and, t1, t2] at this
  refine ⟨w.toNat.log2, ?_, hk⟩
  by_contra hc
  have : (2 : Nat) ^ 63 ≤ 2 ^ w.toNat.log2 := Nat.pow_le_pow_right (by norm_num) (by omega)
  unfold maxInt64 at hlt
  norm_num at this
  omega

/-! ### Operands -/

/-- The argument test passes exactly on `0 .. SIZE` (60_exceptions.md R136). -/
theorem argError_eq_none {size n : Int} : argError size n = none ↔ 0 ≤ n ∧ n ≤ size := by
  unfold argError
  split
  · simp; omega
  · split
    · simp; omega
    · simp; omega

/-- A payload within range is taken whole (30_encoding.md R77). -/
theorem takenPayload_of_range {size n : Word} (payload : List Byte) (h1 : 0 ≤ n.toInt) (h2 : n.toInt ≤ size.toInt) :
    takenPayload size n payload = payload := by
  unfold takenPayload
  rw [if_pos (argError_eq_none.2 ⟨h1, h2⟩)]

/-- With `SAMPLE_LAG = none` a load returns the current value (20_memory.md R59). -/
@[simp] theorem observe_none (floor cur : Word) (lag : Nat) : observe .none floor cur lag = cur := rfl

/-! ### Byte-space operations with several accesses -/

/-- What the wrapping copy of PEEK gives: the bytes of the run, read from `TMP`, whose cells it fills from index 0 (41_consumer_commands.md
R110). -/
theorem splitCopy_ok {buf tmp tmp' : Memory} {size start m : Nat} {view : List Byte} (hs : start < size)
    (hm : size - start < m) (hms : m ≤ size) (h : splitCopy buf tmp size start m = .ok (view, tmp')) :
    view.length = m ∧ (∀ j, j < m → buf.read ((start + j) % size) = view[j]?) ∧
      (∀ j, j < m → tmp'.read j = view[j]?) ∧ (∀ j, m ≤ j → tmp'.read j = tmp.read j) ∧
      (tmp.wf → tmp'.wf) ∧ ((∀ x ∈ tmp, x.1 < size) → ∀ x ∈ tmp', x.1 < size) := by
  unfold splitCopy at h
  simp only at h
  split at h
  · cases h
  next front h1 =>
  split at h
  · cases h
  next tmp1 h2 =>
  split at h
  · cases h
  next back h3 =>
  split at h
  · cases h
  next tmp2 h4 =>
  split at h
  · cases h
  next v h5 =>
  cases h
  obtain ⟨-, a2⟩ := memRead_ok _ _ _ _ _ h1
  obtain ⟨b1, rfl⟩ := memWrite_ok _ _ _ _ _ h2
  obtain ⟨-, c2⟩ := memRead_ok _ _ _ _ _ h3
  obtain ⟨d1, rfl⟩ := memWrite_ok _ _ _ _ _ h4
  obtain ⟨-, e2⟩ := memRead_ok _ _ _ _ _ h5
  have la := Memory.readRun_length _ _ _ _ a2
  have lc := Memory.readRun_length _ _ _ _ c2
  have le := Memory.readRun_length _ _ _ _ e2
  have hv : ∀ j, j < m → ((tmp.write 0 front).write (size - start) back).read j = view[j]? := by
    intro j hj
    have := Memory.readRun_byte _ _ _ j _ e2 hj
    rwa [Nat.zero_add] at this
  refine ⟨le, ?_, hv, ?_, ?_, ?_⟩
  · intro j hj
    rw [← hv j hj]
    by_cases hc : j < size - start
    · rw [Memory.read_write_out _ _ _ _ (by omega), Memory.read_write_in _ _ _ _ (by omega) (by omega)]
      have e : (start + j) % size = start + j := Nat.mod_eq_of_lt (by omega)
      rw [e, Memory.readRun_byte _ _ _ j _ a2 hc]; rfl
    · rw [Memory.read_write_in _ _ _ _ (by omega) (by omega)]
      have e : (start + j) % size = 0 + (j - (size - start)) := by
        rw [Nat.mod_eq_sub_mod (by omega)]
        rw [Nat.mod_eq_of_lt] <;> omega
      rw [e, Memory.readRun_byte _ _ _ _ _ c2 (by omega)]
  · intro j hj
    rw [Memory.read_write_out _ _ _ _ (by omega), Memory.read_write_out _ _ _ _ (by omega)]
  · exact fun hw => Memory.write_wf _ _ _ (Memory.write_wf _ _ _ hw)
  · intro hb x hx
    rcases Memory.mem_write _ _ _ _ hx with hx | hx
    · rcases Memory.mem_write _ _ _ _ hx with hx | hx
      · exact hb x hx
      · omega
    · omega

/-! ### Steps -/

/-- What one step of a command can do. -/
theorem command_next {i : Instr} {first : Label} {body : Label → State → Out} {s t : State}
    (h : command i first body s = .next t) :
    (s.phase = .idle ∧ legal s.turn i s = true ∧ i.payloadFits s.size (s.port s.turn).payload = true ∧
        body first (accept i first s) = .next t) ∨
      (s.phase = .idle ∧ legal s.turn i s = false ∧ t = s.respond ⟨.illegal, 0, 0, []⟩) ∨
      ∃ l, s.phase = .run i l ∧ accepts s.turn i = true ∧ body l s = .next t := by
  unfold command at h
  split at h
  · next hp =>
    split at h
    · next hl =>
      split at h
      · next hf => exact .inl ⟨hp, hl, hf, h⟩
      · cases h
    · next hl =>
      simp only [respondIllegal, respond] at h
      cases h
      exact .inr (.inl ⟨hp, by simpa using hl, rfl⟩)
  · next j l hp =>
    split at h
    · next hj =>
      subst hj
      split at h
      · next ha => exact .inr (.inr ⟨l, hp, ha, h⟩)
      · cases h
    · cases h

/-- What one step of `Gate(p.n)` can do (40_producer_commands.md R96). -/
theorem gateStep_next {after l : Label} {onEos : State → Out} {s t : State} (h : gateStep after onEos l s = .next t) :
    (l = .G1 ∧ overflows s (s.pseq.cursor.toInt + s.p.n.toInt) = false ∧
        ∃ s', s' = s.setP
              { s.p with
                ppos := s.pseq.cursor, next := narrow (s.pseq.cursor.toInt + s.p.n.toInt),
                wrap := narrow (s.pseq.cursor.toInt + s.p.n.toInt - s.size.toInt), g := s.pseq.gate } ∧
          t = s'.goto
            (if gateWaits (s.pseq.cursor.toInt + s.p.n.toInt - s.size.toInt) s.pseq.gate.toInt s.pseq.cursor.toInt
              then .G2 else .G4)) ∨
      (l = .G2 ∧ s.p.wrap.toInt ≤ s.sample.toInt ∧
        t = (((s.noteSample.setP { s.p with c := s.sample }).setGate s.sample).goto .G4)) ∨
      (l = .G2 ∧ s.sample.toInt < s.p.wrap.toInt ∧ t = (s.noteSample.setP { s.p with c := s.sample }).goto .G3) ∨
      (l = .G3 ∧ s.done = true ∧ onEos s = .next t) ∨ (l = .G3 ∧ s.done = false ∧ t = s.goto .G2) ∨
      (l = .G4 ∧ t = s.goto after) := by
  cases l <;> simp only [gateStep] at h <;> try (exact absurd h (by simp [stray]))
  · split at h
    · cases h
    · next ho =>
      refine .inl ⟨rfl, by simpa using ho, _, rfl, ?_⟩
      split at h <;> next hw => simp only [goto] at h; cases h; simp [hw]
  · split at h
    · next hw => simp only [goto] at h; cases h; exact .inr (.inl ⟨rfl, hw, rfl⟩)
    · next hw => simp only [goto] at h; cases h; exact .inr (.inr (.inl ⟨rfl, by omega, rfl⟩))
  · split at h
    · next hd => exact .inr (.inr (.inr (.inl ⟨rfl, hd, h⟩)))
    · next hd =>
      simp only [goto] at h; cases h
      exact .inr (.inr (.inr (.inr (.inl ⟨rfl, by simpa [State.loadDone] using hd, rfl⟩))))
  · simp only [goto] at h; cases h
    exact .inr (.inr (.inr (.inr (.inr ⟨rfl, rfl⟩))))

/-- What one step of `CWait()` can do (41_consumer_commands.md R107). -/
theorem cwaitStep_next {after l : Label} {onEos : State → Out} {s t : State}
    (h : cwaitStep after onEos l s = .next t) :
    (l = .K1 ∧ t = (s.setC { s.c with cpos := s.cseq.cursor }).goto .K2) ∨
      (l = .K2 ∧
        t = (s.noteSample.setC { s.c with ppos := s.sample }).goto
            (if s.c.cpos.toInt < s.sample.toInt then .K4 else .K3)) ∨
      (l = .K3 ∧ s.done = true ∧ onEos s.bumpCwait = .next t) ∨
      (l = .K3 ∧ s.done = false ∧ t = s.bumpCwait.goto .K2) ∨
      (l = .K4 ∧ t = (s.setC { s.c with avail := narrow (s.c.ppos.toInt - s.c.cpos.toInt) }).goto after) := by
  cases l <;> simp only [cwaitStep] at h <;> try (exact absurd h (by simp [stray]))
  · simp only [goto] at h; cases h; exact .inl ⟨rfl, rfl⟩
  · refine .inr (.inl ⟨rfl, ?_⟩)
    split at h <;> next hw => simp only [goto] at h; cases h; simp [hw]
  · split at h
    · next hd => exact .inr (.inr (.inl ⟨rfl, hd, h⟩))
    · next hd =>
      simp only [goto] at h; cases h
      exact .inr (.inr (.inr (.inl ⟨rfl, by simpa [State.loadDone] using hd, rfl⟩)))
  · simp only [goto] at h; cases h
    exact .inr (.inr (.inr (.inr ⟨rfl, rfl⟩)))

/-- What a call to the source can do (42_macro_commands.md R116). -/
theorem srcRead_next {mx : Int} {l : Label} {s t : State} (h : srcRead mx l s = .next t) :
    (s.env.source = [] ∧ t = s) ∨
      ∃ a rest, s.env.source = a :: rest ∧ a.fits mx = true ∧
        t = (((s.setEnv { s.env with source := rest }).setP
          { s.p with n := narrow a.data.length, data := a.data, err := a.err }).goto l) := by
  unfold srcRead at h
  split at h
  · next hs => cases h; exact .inl ⟨hs, rfl⟩
  · next a rest hs =>
    split at h
    · next hf => simp only [goto] at h; cases h; exact .inr ⟨a, rest, hs, hf, rfl⟩
    · cases h

/-- What a call to the sink can do (42_macro_commands.md R117). -/
theorem sinkWrite_next {l : Label} {s t : State} (h : sinkWrite l s = .next t) :
    (s.env.sink = [] ∧ t = s) ∨
      ∃ a rest, s.env.sink = a :: rest ∧ a.fits s.c.view = true ∧
        t = (((s.setEnv { s.env with sink := rest, delivered := s.env.delivered ++ [s.c.view] }).setC
          { s.c with k := narrow a.count, err := a.err }).goto l) := by
  unfold sinkWrite at h
  split at h
  · next hs => cases h; exact .inl ⟨hs, rfl⟩
  · next a rest hs =>
    split at h
    · next hf => simp only [goto] at h; cases h; exact .inr ⟨a, rest, hs, hf, rfl⟩
    · cases h

end Sys2Proof.Machine
end

