-- ==== Sys2Proof/Laws/PerInstr.lean ====
section
/-! SUPPORT. The statements made per command: what spec/opcode_table.json says of its row (its fixed bits and its ports)
holds of the encoder and of port capability. -/

namespace Sys2Proof.Laws

/-- Column `mask` of spec/opcode_table.json. -/
def tableMask : Instr → BitVec 68
  | .write _ => 0xF0000000000000000
  | .rsve => 0xFFFFFFFFFFFFFFFFF
  | .publ _ => 0xF0000000000000000
  | .read _ => 0xF0000000000000000
  | .peek _ => 0xF0000000000000000
  | .commit _ => 0xF0000000000000000
  | .readFrom => 0xFFFFFFFFFFFFFFFFF
  | .readFromB => 0xFFFFFFFFFFFFFFFFF
  | .writeTo => 0xFFFFFFFFFFFFFFFFF
  | .close => 0xFFFFFFFFFFFFFFFFF
  | .len => 0xFFFFFFFFFFFFFFFFF
  | .ident => 0xFFFFFFFFFFFFFFFFF

/-- Column `match` of spec/opcode_table.json. -/
def tableMatch : Instr → BitVec 68
  | .write _ => 0x10000000000000000
  | .rsve => 0x20000000000000000
  | .publ _ => 0x30000000000000000
  | .read _ => 0x40000000000000000
  | .peek _ => 0x50000000000000000
  | .commit _ => 0x60000000000000000
  | .readFrom => 0x80000000000000000
  | .readFromB => 0x90000000000000000
  | .writeTo => 0xA0000000000000000
  | .close => 0xC0000000000000000
  | .len => 0xD0000000000000000
  | .ident => 0xE0000000000000000

/-- Column `port` of spec/opcode_table.json. -/
def tablePorts : Instr → List Port
  | .write _ => [.P]
  | .rsve => [.P]
  | .publ _ => [.P]
  | .read _ => [.C]
  | .peek _ => [.C]
  | .commit _ => [.C]
  | .readFrom => [.P]
  | .readFromB => [.P]
  | .writeTo => [.C]
  | .close => [.P, .C]
  | .len => [.P, .C]
  | .ident => [.P, .C]

/-- The word of the command has the fixed bits of its row, and the ports of the row are those that accept it
(30_encoding.md R75, R76). -/
def TableRow.Statement (i : Instr) : Prop :=
  encode i &&& tableMask i = tableMatch i ∧ ∀ a, Machine.accepts a i = (tablePorts i).contains a

/-- A word with any count under an opcode masks to the opcode. -/
theorem masked_append (op : BitVec 4) (n : Word) :
    (op ++ n) &&& (0xF0000000000000000 : BitVec 68) = op ++ (0 : Word) := by
  apply BitVec.eq_of_getLsbD_eq
  intro k hk
  have hm : (0xF0000000000000000 : BitVec 68) = (0xF : BitVec 4) ++ (0 : Word) := by decide
  have hones : ∀ j, j < 4 → (0xF : BitVec 4).getLsbD j = true := by decide
  rw [hm, BitVec.getLsbD_and, BitVec.getLsbD_append, BitVec.getLsbD_append, BitVec.getLsbD_append]
  by_cases h : k < 64
  · simp [h]
  · simp only [h, if_false]
    rw [hones (k - 64) (by omega), Bool.and_true]

theorem TableRow.write (n : Word) : TableRow.Statement (.write n) :=
  ⟨(masked_append _ n).trans (by simp only [opcode, tableMatch]; decide), fun a => by cases a <;> rfl⟩

theorem TableRow.rsve : TableRow.Statement .rsve :=
  ⟨by decide, fun a => by cases a <;> rfl⟩

theorem TableRow.publ (n : Word) : TableRow.Statement (.publ n) :=
  ⟨(masked_append _ n).trans (by simp only [opcode, tableMatch]; decide), fun a => by cases a <;> rfl⟩

theorem TableRow.read (n : Word) : TableRow.Statement (.read n) :=
  ⟨(masked_append _ n).trans (by simp only [opcode, tableMatch]; decide), fun a => by cases a <;> rfl⟩

theorem TableRow.peek (n : Word) : TableRow.Statement (.peek n) :=
  ⟨(masked_append _ n).trans (by simp only [opcode, tableMatch]; decide), fun a => by cases a <;> rfl⟩

theorem TableRow.commit (n : Word) : TableRow.Statement (.commit n) :=
  ⟨(masked_append _ n).trans (by simp only [opcode, tableMatch]; decide), fun a => by cases a <;> rfl⟩

theorem TableRow.readFrom : TableRow.Statement .readFrom :=
  ⟨by decide, fun a => by cases a <;> rfl⟩

theorem TableRow.readFromB : TableRow.Statement .readFromB :=
  ⟨by decide, fun a => by cases a <;> rfl⟩

theorem TableRow.writeTo : TableRow.Statement .writeTo :=
  ⟨by decide, fun a => by cases a <;> rfl⟩

theorem TableRow.close : TableRow.Statement .close :=
  ⟨by decide, fun a => by cases a <;> rfl⟩

theorem TableRow.len : TableRow.Statement .len :=
  ⟨by decide, fun a => by cases a <;> rfl⟩

theorem TableRow.ident : TableRow.Statement .ident :=
  ⟨by decide, fun a => by cases a <;> rfl⟩

end Sys2Proof.Laws
end

