-- ==== Sys2Proof/Tests/Slice0.lean ====
section
/-! SUPPORT. Tests: ill-formed pairs and answers that WellFormed refuses, words written out from the spec's encodings, single
steps with results taken from the spec's rules and worked examples, and a witness for the hypotheses of every
statement of Certificates/Slice0/Obligations.lean. -/

namespace Sys2Proof.Tests

open Sys2Proof.Machine

/-! ### WellFormed: what is refused (30_encoding.md R77; 42_macro_commands.md R116, R117) -/

theorem test_wf_write_payload_short : Instr.payloadFits 2048 [0x68] (.write 2) = false := by decide
theorem test_wf_write_payload_long : Instr.payloadFits 2048 [0x68, 0x65] (.write 1) = false := by decide
theorem test_wf_publ_payload_short : Instr.payloadFits 2048 [] (.publ 1) = false := by decide
theorem test_wf_write_out_of_range_ignored : Instr.payloadFits 2048 [0x68] (.write 2049) = true := by decide
theorem test_wf_source_overrun : SrcAnswer.fits 1 ⟨[1, 2], .none⟩ = false := by decide
theorem test_wf_source_code_low : SrcAnswer.fits 1 ⟨[], .ext 15⟩ = false := by decide
theorem test_wf_sink_short_without_error : SinkAnswer.fits [1, 2] ⟨1, none⟩ = false := by decide
theorem test_wf_sink_overrun : SinkAnswer.fits [1, 2] ⟨3, some 16⟩ = false := by decide
theorem test_wf_sink_code_low : SinkAnswer.fits [1, 2] ⟨1, some 15⟩ = false := by decide
theorem test_wf_params_small_default : Params.ok { defSize := 1024 } = false := by decide

/-! ### Words, bit by bit (30_encoding.md R72, R75, R90; spec/opcode_table.json) -/

theorem test_word_write : decode 0x10000000000000005 = .instr (.write 5) := by decide
theorem test_word_rsve : decode 0x20000000000000000 = .instr .rsve := by decide
theorem test_word_publ : decode 0x30000000000000090 = .instr (.publ 144) := by decide
theorem test_word_read : decode 0x40000000000000100 = .instr (.read 256) := by decide
theorem test_word_peek : decode 0x50000000000000800 = .instr (.peek 2048) := by decide
theorem test_word_commit : decode 0x6FFFFFFFFFFFFFFFF = .instr (.commit (-1)) := by decide
theorem test_word_readfrom : decode 0x80000000000000000 = .instr .readFrom := by decide
theorem test_word_readfromb : decode 0x90000000000000000 = .instr .readFromB := by decide
theorem test_word_writeto : decode 0xA0000000000000000 = .instr .writeTo := by decide
theorem test_word_close : decode 0xC0000000000000000 = .instr .close := by decide
theorem test_word_len : decode 0xD0000000000000000 = .instr .len := by decide
theorem test_word_ident : decode 0xE0000000000000000 = .instr .ident := by decide
theorem test_word_reserved_0 : decode 0x00000000000000001 = .illegal (.reservedOpcode 0x0) := by decide
theorem test_word_reserved_7 : decode 0x70000000000000000 = .illegal (.reservedOpcode 0x7) := by decide
theorem test_word_reserved_b : decode 0xB0000000000000000 = .illegal (.reservedOpcode 0xB) := by decide
theorem test_word_reserved_f : decode 0xF0000000000000000 = .illegal (.reservedOpcode 0xF) := by decide
theorem test_word_close_with_count : decode 0xC0000000000000001 = .illegal (.countNotZero 0xC) := by decide
theorem test_word_writeto_with_high_count : decode 0xA8000000000000000 = .illegal (.countNotZero 0xA) := by decide
theorem test_encode_commit_minus_one : encode (.commit (-1)) = 0x6FFFFFFFFFFFFFFFF := by decide
theorem test_table_word_padding : decodeTableWord 72 0x1000000000000000000 = none := by decide
theorem test_table_word_read : decodeTableWord 72 0x40000000000000100 = some (.read 256) := by decide

/-! ### Positions, copies, descriptors, codes -/

/-- 20_memory.md R48 with `SIZE = 4096`: `idx(4095) = 4095`, `idx(4096) = 0`, `idx(5000) = 904`. -/
theorem test_idx : [idxOf 4095 4095, idxOf 4095 4096, idxOf 4095 5000] = [4095, 0, 904] := by decide

/-- 20_memory.md R51: four bytes from index 6 of an 8-byte space. -/
theorem test_ring_copy_wraps :
    ringCopy [(0, 9), (3, 9)] 8 6 [1, 2, 3, 4] = .ok [(0, 3), (1, 4), (3, 9), (6, 1), (7, 2)] := by decide

/-- 41_consumer_commands.md R109 (a): `SIZE = 2048`, positions 1500 to 3000: 548 bytes, then 952. -/
theorem test_read_is_short_at_the_end :
    readLen 2048 1500 2048 1500 = 548 ∧ readLen 2048 952 2048 0 = 952 := by decide

/-- 30_encoding.md R84: `TMP@0` and `BUF@2040`. -/
theorem test_view_descriptor :
    viewAux true 0 = 0x8000000000000000 ∧ viewAux false 2040 = 0x00000000000007F8 := by decide

/-- 30_encoding.md R83. -/
theorem test_status_codes :
    [Status.ok, .eos, .insuf, .full, .neg, .notPow2, .tooSmall, .illegal, .ext 200].map statusCode =
      [0, 1, 2, 3, 4, 5, 6, 7, 200] := by decide

/-- 30_encoding.md R87: `ramp(254, 4)`. -/
theorem test_ramp : ramp 254 4 = [254, 255, 0, 1] := by decide

/-- 20_memory.md R53: word 0 of a line is its first eight bytes, least significant first. -/
theorem test_line_bytes :
    (SeqLine.bytes ⟨0x0102030405060708, 0, List.replicate 6 0⟩).take 9 = [8, 7, 6, 5, 4, 3, 2, 1, 0] := by decide

/-- 00_scope.md R6; 10_state.md R20: six dead words fill 64 bytes, fourteen fill 128. -/
theorem test_line_words : Params.padWords {} = 6 ∧ Params.padWords { lineBytes := 128 } = 14 := by decide

/-- 00_scope.md R6, 70_reset_and_hazards.md R152: `ADDR_BITS = 20` for the default size. -/
theorem test_addr_bits : State.reset.addrBits = 20 := by decide

/-- 42_macro_commands.md R120, scenario S6: 10 000 bytes are four views of 2048 and one of 1808. -/
theorem test_view_sizes : viewSizes 2048 10000 = [2048, 2048, 2048, 2048, 1808] := by decide

/-- 10_state.md R39: register 8 is `CSEQ.cursor`, 16 `DONE`, 18 `MASK`; 27 is none. -/
theorem test_register_numbers :
    [8, 16, 18, 27].map State.reset.regBits = [some 0, some 0, some 1048575, none] := by decide

/-- 70_reset_and_hazards.md R151, R152. -/
theorem test_configurations :
    [4096, 2048, 0, 1024, 4095, 1000, -1, 1].map (checkSize Config.defaultParams) =
      [.size 4096, .size 2048, .size 1048576, .fail .tooSmall 0, .fail .notPow2 4096, .fail .notPow2 2048,
        .fail .neg 0, .fail .tooSmall 0] := by decide

/-! ### Single steps on a small ring -/

/-- The next state of an outcome, if it is one. -/
def after : Out → Option State
  | .next t => some t
  | .fault _ => none
  | .refused _ => none

/-- What a step leaves on the port whose step it was: its phase and its newest response. -/
def seen (o : Out) : Option (Phase × Option Response) :=
  (after o).map (fun t => (t.phase, (t.port t.turn).responses.getLast?))

/-- `SIZE = 2048`, four unread bytes 1, 2, 3, 4 at the positions 2046 to 2049: the run
wraps. Two bytes 5, 6 are stored behind them and not published. -/
def ring : State :=
  { State.reset with
    size := 2048, mask := 2047, ident := 7,
    pseq := ⟨2050, 2040, List.replicate 6 0⟩, cseq := ⟨2046, 0, List.replicate 6 0⟩,
    buf := [(0, 3), (1, 4), (2, 5), (3, 6), (2046, 1), (2047, 2)] }

/-- The ring with the P-port in a phase, with latches. -/
def atP (ph : Phase) (p : PLatches := PLatches.reset) : State :=
  { ring with turn := .P, p := p, pPort := { PortState.reset with phase := ph } }

/-- The ring with the C-port in a phase, with latches. -/
def atC (ph : Phase) (c : CLatches := CLatches.reset) : State :=
  { ring with turn := .C, c := c, cPort := { PortState.reset with phase := ph } }

/-- An inner command starts with its bound (20_memory.md R59) at the other cursor: DEDUCED from R123, log entry 9. -/
theorem test_inner_command_raises_bound :
    (atP .idle).raiseFloor.pPort.floor = 2046 ∧ (atC .idle).raiseFloor.cPort.floor = 2050 := by decide

/-- 40_producer_commands.md R93 (e): a payload that wraps: two bytes at 2046 and 2047, two at 0 and 1. -/
theorem test_write_wraps :
    (after (exec (.write 4)
      { atP (.run (.write 4) .W3) { PLatches.reset with n := 4, ppos := 2046, data := [5, 6, 7, 8] } with
        buf := [] })).map (fun t => (t.buf, t.phase)) =
      some ([(0, 7), (1, 8), (2046, 5), (2047, 6)], .run (.write 4) .W4) := by decide

/-- 40_producer_commands.md R93 (d): `WRITE -1` is `(NEG, 0)` at once. -/
theorem test_write_negative : seen (exec (.write (-1)) (atP .idle)) = some (.idle, some ⟨.neg, 0, 0, []⟩) := by decide

/-- 40_producer_commands.md R102: the stale gate: `wrap = 1 > gate = 0`, so the claim waits. -/
theorem test_gate_waits_on_stale_gate :
    (after (exec (.write 1)
      { atP (.run (.write 1) .G1) { PLatches.reset with n := 1 } with
        pseq := { ring.pseq with cursor := 2048, gate := 0 },
        cseq := { ring.cseq with cursor := 2048 } })).map (fun t => (t.p.next, t.p.wrap, t.phase)) =
      some (2049, 1, .run (.write 1) .G2) := by decide

/-- 40_producer_commands.md R102: the wait ends at its first sample and the gate takes it. -/
theorem test_gate_is_refreshed :
    (after (exec (.write 1)
      { atP (.run (.write 1) .G2) { PLatches.reset with n := 1, wrap := 1 } with
        pseq := { ring.pseq with cursor := 2048, gate := 0 },
        cseq := { ring.cseq with cursor := 2048 } })).map (fun t => (t.pseq.gate, t.phase)) =
      some (2048, .run (.write 1) .G4) := by decide

/-- 40_producer_commands.md R94: `SIZE = 4096`, `PSEQ.cursor = 4000`: 96 bytes up to the physical end. -/
theorem test_rsve_stops_at_the_end :
    (after (exec .rsve
      { atP .idle with
        size := 4096, mask := 4095, pseq := { ring.pseq with cursor := 4000 } })).map
        (fun t => (t.p.n, t.p.ppos, t.phase)) =
      some (96, 4000, .run .rsve .G1) := by decide

/-- 40_producer_commands.md R94: RSVE while a reservation stands is `ILLEGAL`. -/
theorem test_rsve_while_reserved :
    seen (exec .rsve { atP .idle with rsv := ⟨true, 2050, 5⟩ }) = some (.idle, some ⟨.illegal, 0, 0, []⟩) := by
  decide

/-- 40_producer_commands.md R95: U2 with `k = 2`: cursor `+ 2`, reservation ended, `(OK, 2)`. -/
theorem test_publ_publishes :
    (after (exec (.publ 2)
      { atP (.run (.publ 2) .U2) { PLatches.reset with n := 2 } with rsv := ⟨true, 2050, 9⟩ })).map
        (fun t => (t.pseq.cursor, t.rsv.valid, t.pPort.responses)) =
      some (2052, false, [⟨.ok, 2, 0, []⟩]) := by decide

/-- 30_encoding.md R86 case 6: PUBL beyond the reservation is `ILLEGAL`. -/
theorem test_publ_beyond :
    seen (exec (.publ 10) { atP .idle with rsv := ⟨true, 2050, 9⟩ }) = some (.idle, some ⟨.illegal, 0, 0, []⟩) := by
  decide

/-- 41_consumer_commands.md R108: at index 2046 of 2048 a READ of 4 takes the 2 bytes up to the end. -/
theorem test_read_copies :
    (after (exec (.read 4)
      (atC (.run (.read 4) .A3) { CLatches.reset with n := 4, cpos := 2046, ppos := 2050, avail := 4 }))).map
        (fun t => (t.c.m, t.c.view, t.phase)) =
      some (2, [1, 2], .run (.read 4) .A4) := by decide

/-- 41_consumer_commands.md R108: `READ -1` is `(NEG, 0)`. -/
theorem test_read_negative : seen (exec (.read (-1)) (atC .idle)) = some (.idle, some ⟨.neg, 0, 0, []⟩) := by decide

/-- 41_consumer_commands.md R113 (g): the wrapped view stands in `TMP` from 0. -/
theorem test_peek_wraps :
    (after (exec (.peek 4)
      (atC (.run (.peek 4) .B3) { CLatches.reset with n := 4, cpos := 2046, ppos := 2050, avail := 4 }))).map
        (fun t => (t.tmp, t.cPort.responses)) =
      some ([(0, 1), (1, 2), (2, 3), (3, 4)], [⟨.ok, 4, 0x8000000000000000, [1, 2, 3, 4]⟩]) := by decide

/-- 41_consumer_commands.md R110: fewer bytes than asked for is `INSUF` with the bytes there are. -/
theorem test_peek_short :
    seen (exec (.peek 9)
      (atC (.run (.peek 9) .B3) { CLatches.reset with n := 9, cpos := 2046, ppos := 2048, avail := 2 })) =
      some (.idle, some ⟨.insuf, 2, 2046, [1, 2]⟩) := by decide

/-- 41_consumer_commands.md R114 (c): `n = LEN + 1` is `(INSUF, 0)`. -/
theorem test_commit_short :
    seen (exec (.commit 5) (atC (.run (.commit 5) .M2) { CLatches.reset with n := 5 })) =
      some (.idle, some ⟨.insuf, 0, 0, []⟩) := by decide

/-- 41_consumer_commands.md R112: M3 advances by exactly `n`. -/
theorem test_commit_advances :
    (after (exec (.commit 3) (atC (.run (.commit 3) .M3) { CLatches.reset with n := 3, cpos := 2046 }))).map
        (fun t => (t.cseq.cursor, t.cPort.responses)) =
      some (2049, [⟨.ok, 3, 0, []⟩]) := by decide

/-- 42_macro_commands.md R118: F4 with the source's end answers `(EOS, total)`. -/
theorem test_readfrom_ends :
    seen (exec .readFrom (atP (.run .readFrom .F4) { PLatches.reset with total := 144, err := .eos })) =
      some (.idle, some ⟨.eos, 144, 0, []⟩) := by decide

/-- 42_macro_commands.md R118: READFROM is refused while a reservation stands. -/
theorem test_readfrom_while_reserved :
    seen (exec .readFrom { atP .idle with rsv := ⟨true, 2050, 5⟩ }) =
      some (.idle, some ⟨.illegal, 0, 0, []⟩) := by decide

/-- 42_macro_commands.md R119: E1 latches the answer of a source. -/
theorem test_readfromb_reads :
    (after (exec .readFromB
      { atP (.run .readFromB .E1) with env := { Env.empty with source := [⟨[7, 8], .eos⟩] } })).map
        (fun t => (t.p.n, t.p.data, t.p.err, t.phase)) =
      some (2, [7, 8], .eos, .run .readFromB .W1) := by decide

/-- 42_macro_commands.md R119: E3 surfaces the source's code verbatim. -/
theorem test_readfromb_error :
    seen (exec .readFromB (atP (.run .readFromB .E3) { PLatches.reset with total := 9, err := .ext 33 })) =
      some (.idle, some ⟨.ext 33, 9, 0, []⟩) := by decide

/-- 42_macro_commands.md R120: T2 hands the view to the sink. -/
theorem test_writeto_delivers :
    (after (exec .writeTo
      { atC (.run .writeTo .T2) { CLatches.reset with m := 2, view := [1, 2] } with
        env := { Env.empty with sink := [⟨2, none⟩] } })).map (fun t => (t.env.delivered, t.c.k, t.phase)) =
      some ([[1, 2]], 2, .run .writeTo .T3) := by decide

/-- 42_macro_commands.md R120: a sink error ends WRITETO with the bytes taken. -/
theorem test_writeto_sink_error :
    seen (exec .writeTo
      (atC (.run .writeTo .T3) { CLatches.reset with m := 2, total := 5, k := 1, err := some 40 })) =
      some (.idle, some ⟨.ext 40, 6, 0, []⟩) := by decide

/-- 43_common_commands.md R126: the four unread bytes, seen from either port. -/
theorem test_len :
    seen (exec .len (atP (.run .len .L2) { PLatches.reset with ppos := 2050 })) =
        some (.idle, some ⟨.ok, 4, 0, []⟩) ∧
      seen (exec .len (atC (.run .len .L2) { CLatches.reset with cpos := 2046 })) =
        some (.idle, some ⟨.ok, 4, 0, []⟩) := by decide

/-- 43_common_commands.md R127: with `cfg_id = 7`, `ID` is `(OK, 7)`. -/
theorem test_ident : seen (exec .ident (atC .idle)) = some (.idle, some ⟨.ok, 7, 0, []⟩) := by decide

/-- 43_common_commands.md R128. -/
theorem test_close :
    (after (exec .close (atP .idle))).map (fun t => (t.done, t.pPort.responses)) =
      some (true, [⟨.ok, 0, 0, []⟩]) := by decide

/-- 41_consumer_commands.md R107: a sample without data and `DONE` set: `EOS`, and `CWAIT` counts. -/
theorem test_wait_ends_on_close :
    (after (exec (.read 1) { atC (.run (.read 1) .K3) with done := true })).map
        (fun t => (t.cwait, t.cPort.responses)) =
      some (1, [⟨.eos, 0, 0, []⟩]) := by decide

/-- 30_encoding.md R90: `WRITE` on the C-port is illegal. -/
theorem test_write_on_c_port :
    seen (exec (.write 5) (atC .idle)) = some (.idle, some ⟨.illegal, 0, 0, []⟩) := by decide

/-! ### The first step after reset -/

/-- The word of `WRITE 5` is presented with a payload of 5 bytes and runs (log entry 6). -/
theorem test_first_step_write :
    seen (step (State.reset.withFetchWord 72 0x10000000000000005)) = some (.run (.write 5) .G1, none) := by decide

/-- The word of `READ 256` is presented on the C-port and runs. -/
theorem test_first_step_read :
    seen (step (State.reset.withFetchWord 72 0x40000000000000100)) = some (.run (.read 256) .K1, none) := by decide

/-- A reserved opcode is answered `ILLEGAL`. -/
theorem test_first_step_reserved :
    seen (step (State.reset.withFetchWord 72 0x70000000000000000)) = some (.idle, some ⟨.illegal, 0, 0, []⟩) := by
  decide

/-- A failed configuration answers `ILLEGAL` to a legal word (70_reset_and_hazards.md R150). -/
theorem test_first_step_failed_configuration :
    seen (step ((resetWith 1000 7 State.reset).withFetchWord 72 0xC0000000000000000)) =
      some (.idle, some ⟨.illegal, 0, 0, []⟩) := by decide

/-! ### Witnesses: states that meet the hypotheses of the statements -/

/-- A state over the small ring is sound when its reservation and its two phases are. -/
theorem ring_inv (s : State) (h1 : s.size = 2048) (h2 : s.mask = 2047) (h3 : s.params.rblk = 1024)
    (h4 : s.params.ok = true) (h5 : s.pseq = ring.pseq) (h6 : s.cseq = ring.cseq) (h7 : s.buf = ring.buf)
    (h8 : s.tmp = []) (h9 : s.pPort.floor = 0) (h10 : s.cPort.floor = 0) (hr : s.RsvInv) (hp : s.PPhaseInv)
    (hc : s.CPhaseInv) (hcfg : s.cfgState = .ready) : s.Inv := by
  have hsn : s.sizeNat = 2048 := by simp only [State.sizeNat, h1]; decide
  refine ⟨h4, fun _ => ?_, fun h => by rw [hcfg] at h; cases h⟩
  refine ⟨?_, ?_, ?_, hr, ?_, ?_, ?_, hp, hc⟩
  · refine ⟨⟨11, by omega, by rw [h1]; decide, by rw [h2]; decide⟩, ?_⟩
    simp only [Params.minSize, h3, h1]; decide
  · simp only [State.RingInv, h5, h6, h1]; decide
  · simp only [State.GateInv, h5, h6, h1]; decide
  · refine ⟨by rw [h7]; decide, by rw [h8]; decide, ?_, ?_⟩
    · rw [h7, hsn]; decide
    · rw [h8]; simp
  · intro q hq1 hq2
    rw [h6] at hq1
    rw [h5] at hq2
    have e : s.at q = ring.at q := by simp only [State.at, State.idx, h2, h7]; rfl
    have l1 : (2046 : Int) ≤ q := hq1
    have l2 : q < 2050 := hq2
    rw [e]
    have hq : q = 2046 ∨ q = 2047 ∨ q = 2048 ∨ q = 2049 := by omega
    rcases hq with rfl | rfl | rfl | rfl <;> decide
  · simp only [State.FloorInv, h9, h10, h5, h6]; decide

/-- The small ring with both ports IDLE and no reservation. -/
def ringIdle (turn : Port) (done : Bool := false) (payload : List Byte := []) (env : Env := Env.empty)
    (q : Params := Config.defaultParams) : State :=
  { ring with
    turn := turn, done := done, env := env, params := q, pPort := { PortState.reset with payload := payload } }

theorem ringIdle_inv (turn : Port) (done : Bool) (payload : List Byte) (env : Env) (q : Params) (h1 : q.rblk = 1024)
    (h2 : q.ok = true) : (ringIdle turn done payload env q).Inv :=
  ring_inv _ rfl rfl h1 h2 rfl rfl rfl rfl rfl rfl (fun h => by cases h) trivial trivial rfl

/-- The small ring in the middle of a producer command. -/
theorem atP_inv (i : Instr) (l : Label) (p : PLatches) (ha : accepts .P i = true)
    (hl : (atP (.run i l) p).PLabelInv i l) : (atP (.run i l) p).Inv :=
  ring_inv _ rfl rfl rfl (by rfl) rfl rfl rfl rfl rfl rfl (fun h => by cases h) ⟨ha, hl⟩ trivial rfl

/-- The small ring in the middle of a consumer command. -/
theorem atC_inv (i : Instr) (l : Label) (c : CLatches) (ha : accepts .C i = true)
    (hl : (atC (.run i l) c).CLabelInv i l) : (atC (.run i l) c).Inv :=
  ring_inv _ rfl rfl rfl (by rfl) rfl rfl rfl rfl rfl rfl (fun h => by cases h) trivial ⟨ha, hl⟩ rfl

/-- An empty ring of 2048 bytes, closed, on which nothing has happened. -/
def emptyClosed : State := { State.reset with size := 2048, mask := 2047, done := true, turn := .C }

theorem emptyClosed_inv : emptyClosed.Inv := by
  refine ⟨by decide, fun _ => ?_, fun h => (by cases h)⟩
  refine ⟨?_, ?_, ?_, fun h => (by cases h), ⟨by decide, by decide, ?_, ?_⟩, ?_, ?_, trivial, trivial⟩
  · exact ⟨⟨11, by omega, by decide, by decide⟩, by decide⟩
  · unfold State.RingInv; decide
  · unfold State.GateInv; decide
  · simp [emptyClosed, State.reset]
  · simp [emptyClosed, State.reset]
  · intro q h1 h2
    have l1 : (0 : Int) ≤ q := h1
    have l2 : q < 0 := h2
    omega
  · unfold State.FloorInv; decide

/-- The latches of a WRITE of `[5, 6]` that holds its claim. -/
def writing : PLatches :=
  { PLatches.reset with n := 2, ppos := 2050, next := 2052, wrap := 4, data := [5, 6] }

theorem writing_operands (i : Instr) (l : Label) (h : isWriting i = true) :
    (atP (.run i l) writing).GateOperands i ∧ (atP (.run i l) writing).Claimed :=
  ⟨⟨rfl, (by decide : (0 : Int) ≤ (2 : Word).toInt), (by decide : (2 : Word).toInt ≤ (2048 : Word).toInt),
      .inl ⟨h, (by decide : (2 : Int) = (2 : Word).toInt)⟩⟩,
    ⟨rfl, (by decide : (2052 : Word).toInt = (2050 : Word).toInt + (2 : Word).toInt),
      (by decide : (4 : Word).toInt = (2052 : Word).toInt - (2048 : Word).toInt),
      (by decide : (2052 : Word).toInt + (2048 : Word).toInt ≤ maxInt64)⟩,
    (by decide : (4 : Word).toInt ≤ (2040 : Word).toInt)⟩

/-- The latches of a READ or PEEK of `n` bytes that has seen all four. -/
def reading (n : Word) : CLatches := { CLatches.reset with n := n, cpos := 2046, ppos := 2050, avail := 4 }

theorem reading_held (ph : Phase) (n : Word) : (atC ph (reading n)).DataHeld :=
  ⟨⟨rfl, (by decide : (2046 : Word).toInt < (2050 : Word).toInt),
      (by decide : (2050 : Word).toInt ≤ (2050 : Word).toInt)⟩,
    (by decide : (4 : Word).toInt = (2050 : Word).toInt - (2046 : Word).toInt)⟩

/-- A port at which `pr` is waiting to be presented, and a schedule that turns to it. -/
def presented (a : Port) (w : BitVec 68) : State :=
  { ringIdle a with
    env := { Env.empty with sched := [.run a 0] },
    pPort := { PortState.reset with script := [⟨w, []⟩] }, cPort := { PortState.reset with script := [⟨w, []⟩] } }

theorem presented_inv (a : Port) (w : BitVec 68) : (presented a w).Inv :=
  ring_inv _ rfl rfl rfl (by rfl) rfl rfl rfl rfl rfl rfl (fun h => by cases h) trivial trivial rfl

theorem test_witness_DecodeEncodeRoundTrip : ∃ w i, decode w = .instr i := ⟨0x10000000000000005, .write 5, by decide⟩

theorem test_witness_DecodeIsTotal :
    (∃ a w s i, decodeAt a w s = some i) ∧
      ∃ (s : State) (a : Port) (lag : Nat) (rest : List Turn) (pr : Presented) (prs : List Presented),
        s.env.sched = .run a lag :: rest ∧ (s.port a).phase = .idle ∧ (s.port a).script = pr :: prs ∧
          decodeAt a pr.cmd s = none :=
  ⟨⟨.P, 0xC0000000000000000, ring, .close, by decide⟩,
    ⟨presented .P 0x40000000000000001, .P, 0, [], ⟨0x40000000000000001, []⟩, [], rfl, rfl, rfl, by decide⟩⟩

theorem test_witness_StepRunsTheDecodedCommand :
    (∃ (s : State) (a : Port) (lag : Nat) (rest : List Turn) (pr : Presented) (prs : List Presented) (i : Instr),
        s.env.sched = .run a lag :: rest ∧ (s.port a).phase = .idle ∧ (s.port a).script = pr :: prs ∧
          decode pr.cmd = .instr i) ∧
      (∃ (s : State) (a : Port) (lag : Nat) (rest : List Turn) (i : Instr) (l : Label),
        s.env.sched = .run a lag :: rest ∧ (s.port a).phase = .run i l) ∧
      (∃ (s : State) (a : Port) (lag : Nat) (rest : List Turn),
        s.env.sched = .run a lag :: rest ∧ (s.port a).phase = .idle ∧ (s.port a).script = []) ∧
      (∃ (s : State) (z id : Word) (rest : List Turn), s.env.sched = .rst z id :: rest) ∧
      ∃ s : State, s.env.sched = [] :=
  ⟨⟨presented .C 0x40000000000000001, .C, 0, [], ⟨0x40000000000000001, []⟩, [], .read 1, rfl, rfl, rfl, by decide⟩,
    ⟨{ atP (.run (.write 1) .G1) with env := { Env.empty with sched := [.run .P 3] } }, .P, 3, [], .write 1, .G1,
      rfl, rfl⟩,
    ⟨{ ring with env := { Env.empty with sched := [.run .C 0] } }, .C, 0, [], rfl, rfl, rfl⟩,
    ⟨{ ring with env := { Env.empty with sched := [.rst 0 1] } }, 0, 1, [], rfl⟩, ⟨ring, rfl⟩⟩

/-- For EveryCommandAnswersOnce, CommandsKeepConfiguration, StoredBytesOnly and the three frames: steps that answer. -/
theorem test_witness_ExecAnswers :
    (∃ t, exec (.write 2) (atP (.run (.write 2) .W3) writing) = .next t) ∧
      (∃ t, exec (.read 4) (atC (.run (.read 4) .A3) (reading 4)) = .next t) ∧
      (∃ t, exec (.peek 4) (atC (.run (.peek 4) .B3) (reading 4)) = .next t) ∧
      (∃ t, exec .len (ringIdle .P) = .next t) ∧ (∃ t, exec .len (ringIdle .C) = .next t) ∧
      (∃ t, exec .close (ringIdle .C) = .next t) ∧ ∃ t, exec (.read 1) (atC (.run (.read 1) .K3)) = .next t :=
  ⟨⟨_, rfl⟩, ⟨_, rfl⟩, ⟨_, rfl⟩, ⟨_, rfl⟩, ⟨_, rfl⟩, ⟨_, rfl⟩, ⟨_, rfl⟩⟩

/-- A step that stores nothing, a WRITE inside and outside its run, a PUBL at its acceptance, and a wrapping view. -/
theorem test_witness_StoredBytesOnly :
    (∃ (i : Instr) (s : State), s.bufStore i = none) ∧
      (∃ (i : Instr) (s : State) (start : Nat) (v : List Byte) (a : Nat),
        s.bufStore i = some (start, v) ∧ ringCovers s.sizeNat start v.length a = false ∧ start < s.sizeNat ∧
          v.length ≤ s.sizeNat ∧ v.length = 2) ∧
      (∃ (k : Word) (s t : State), s.phase = .idle ∧ s.bufStore (.publ k) = some (2, [5, 6]) ∧
        exec (.publ k) s = .next t) ∧
      ∃ (s : State) (a : Nat), s.tmpStore = 4 ∧ s.tmpStore ≤ a :=
  ⟨⟨.len, ring, rfl⟩,
    ⟨.write 2, atP (.run (.write 2) .W3) writing, 2, [5, 6], 4, by decide, by decide, by decide, by decide, rfl⟩,
    ⟨2, { ringIdle .P false [5, 6] with rsv := ⟨true, 2050, 2⟩ }, _, rfl, by decide, rfl⟩,
    ⟨atC (.run (.peek 4) .B3) (reading 4), 4, by decide, by decide⟩⟩

theorem test_witness_ResponsesStayInTheTaxonomy :
    ∃ (s t : State) (a : Port) (r : Response),
      s.ExtInv ∧ step s = .next t ∧ (t.port a).responses = (s.port a).responses ++ [r] :=
  ⟨presented .P 0xE0000000000000000, _, .P, ⟨.ok, 7, 0, []⟩, ⟨fun x h => (by cases h), fun x h => (by cases h)⟩,
    rfl, by decide⟩

theorem test_witness_IndexIsPositionModSize :
    (∃ (s : State) (q : Word), s.SizeInv ∧ 0 ≤ q.toInt ∧ q.toInt + s.size.toInt ≤ maxInt64) ∧
      ∃ (s : State) (q : Word), s.SizeInv ∧ q.toInt = maxInt64 :=
  ⟨⟨ring, 0, ((ringIdle_inv .P false [] Env.empty _ rfl (by decide)).ready rfl).size, by decide, by decide⟩,
    ⟨ring, 0x7FFFFFFFFFFFFFFF, ((ringIdle_inv .P false [] Env.empty _ rfl (by decide)).ready rfl).size, by decide⟩⟩

theorem test_witness_RingCopyWrapsToZero :
    ∃ (m : Memory) (size start : Nat) (v : List Byte), m.wf ∧ start < size ∧ v.length ≤ size ∧ size < start + v.length :=
  ⟨[(0, 9)], 8, 6, [1, 2, 3, 4], by decide, by decide, by decide, by decide⟩

theorem test_witness_SampleRange :
    (∃ s : State, s.FloorInv ∧ s.params.sampleLag = .none) ∧
      (∃ s : State, s.FloorInv ∧ s.params.sampleLag = .lagging) ∧
      ∃ floor cur v : Word, floor.toInt ≤ v.toInt ∧ v.toInt ≤ cur.toInt :=
  ⟨⟨ring, by unfold State.FloorInv; decide, rfl⟩,
    ⟨{ ring with params := { sampleLag := .lagging } }, by unfold State.FloorInv; decide, rfl⟩, 1, 9, 1, by decide,
    by decide⟩

theorem test_witness_GateSteps :
    (∃ (i : Instr) (s : State), s.turn = .P ∧ isWriting i = true ∧ s.phase = .run i .G1 ∧
        s.pseq.cursor.toInt + s.p.n.toInt + s.size.toInt ≤ maxInt64) ∧
      (∃ (i : Instr) (s : State), s.turn = .P ∧ isReserving i = true ∧ s.phase = .run i .G2) ∧
      (∃ (i : Instr) (s : State), s.turn = .P ∧ isWriting i = true ∧ s.phase = .run i .G3 ∧ s.done = false) ∧
      (∃ (i : Instr) (s : State), s.turn = .P ∧ isReserving i = true ∧ s.phase = .run i .G3 ∧ s.done = true) ∧
      ∃ (i : Instr) (s : State), s.turn = .P ∧ isWriting i = true ∧ s.phase = .run i .G4 :=
  ⟨⟨.write 2, atP (.run (.write 2) .G1) writing, rfl, rfl, rfl, by decide⟩,
    ⟨.readFrom, atP (.run .readFrom .G2), rfl, rfl, rfl⟩, ⟨.readFromB, atP (.run .readFromB .G3), rfl, rfl, rfl, rfl⟩,
    ⟨.rsve, { atP (.run .rsve .G3) with done := true }, rfl, rfl, rfl, rfl⟩,
    ⟨.write 2, atP (.run (.write 2) .G4) writing, rfl, rfl, rfl⟩⟩

theorem test_witness_ConsumerWaitSteps :
    (∃ (i : Instr) (s : State), s.turn = .C ∧ i = .writeTo ∧ s.phase = .run i .K1) ∧
      (∃ (i : Instr) (s : State), s.turn = .C ∧ i = .read 4 ∧ s.phase = .run i .K2) ∧
      (∃ (i : Instr) (s : State), s.turn = .C ∧ i = .peek 4 ∧ s.phase = .run i .K3 ∧ s.done = false) ∧
      (∃ (i : Instr) (s : State), s.turn = .C ∧ i = .writeTo ∧ s.phase = .run i .K3 ∧ s.done = true) ∧
      (∃ (i : Instr) (s : State), s.turn = .C ∧ i = .read 4 ∧ s.phase = .run i .K4) ∧
      ∃ (i : Instr) (s : State), s.turn = .C ∧ (∀ n, i ≠ .read n) ∧ i = .peek 4 ∧ s.phase = .run i .K4 :=
  ⟨⟨.writeTo, atC (.run .writeTo .K1), rfl, rfl, rfl⟩, ⟨.read 4, atC (.run (.read 4) .K2), rfl, rfl, rfl⟩,
    ⟨.peek 4, atC (.run (.peek 4) .K3), rfl, rfl, rfl, rfl⟩,
    ⟨.writeTo, { atC (.run .writeTo .K3) with done := true }, rfl, rfl, rfl, rfl⟩,
    ⟨.read 4, atC (.run (.read 4) .K4), rfl, rfl, rfl⟩,
    ⟨.peek 4, atC (.run (.peek 4) .K4), rfl, by simp, rfl, rfl⟩⟩

/-- A claim that the gate allows, one that it does not, and a claim of 0 bytes. -/
theorem test_witness_GateFacts :
    (∃ (i : Instr) (s t : State), s.Inv ∧ s.cfgState = .ready ∧ s.turn = .P ∧ isWriting i = true ∧
        s.phase = .run i .G1 ∧ exec i s = .next t ∧ t.phase = .run i .G4) ∧
      (∃ (i : Instr) (s t : State), s.Inv ∧ s.cfgState = .ready ∧ s.turn = .P ∧ isWriting i = true ∧
        s.phase = .run i .G1 ∧ exec i s = .next t ∧ t.phase = .run i .G2) ∧
      ∃ (i : Instr) (s t : State), s.Inv ∧ s.cfgState = .ready ∧ s.turn = .P ∧ isWriting i = true ∧
        s.phase = .run i .G1 ∧ exec i s = .next t ∧ s.p.n = 0 :=
  ⟨⟨.write 2, atP (.run (.write 2) .G1) writing, _,
      atP_inv _ _ _ rfl ⟨rfl, by decide, by decide, .inl ⟨rfl, by decide⟩⟩, rfl, rfl, rfl, rfl, rfl, by decide⟩,
    ⟨.write 2039, atP (.run (.write 2039) .G1) { writing with n := 2039, data := List.replicate 2039 7 }, _,
      atP_inv _ _ _ rfl ⟨rfl, by decide, by decide, .inl ⟨rfl, by rw [atP, List.length_replicate]; decide⟩⟩, rfl, rfl,
      rfl, rfl, rfl, by decide⟩,
    ⟨.write 0, atP (.run (.write 0) .G1), _, atP_inv _ _ _ rfl ⟨rfl, by decide, by decide, .inl ⟨rfl, by decide⟩⟩, rfl,
      rfl, rfl, rfl, rfl, rfl⟩⟩

theorem test_witness_WaitsExactlyWhileRoomIsShort :
    ∃ (i : Instr) (s t : State), s.Inv ∧ s.cfgState = .ready ∧ s.params.sampleLag = .none ∧ s.turn = .P ∧
      isWriting i = true ∧ s.phase = .run i .G2 ∧ exec i s = .next t :=
  ⟨.write 2, atP (.run (.write 2) .G2) writing, _,
    atP_inv _ _ _ rfl
      ⟨⟨rfl, by decide, by decide, .inl ⟨rfl, by decide⟩⟩, ⟨rfl, by decide, by decide, by decide⟩⟩,
    rfl, rfl, rfl, rfl, rfl, rfl⟩

/-- Each agent can be blocked while the other is not. -/
theorem test_witness_NeverBothBlocked :
    (∃ s : State, s.Inv ∧ s.cfgState = .ready ∧ s.producerBlocked) ∧
      ∃ s : State, s.cfgState = .ready ∧ s.consumerBlocked :=
  ⟨⟨atP (.run (.write 2045) .G2)
        { writing with n := 2045, next := 4095, wrap := 2047, data := List.replicate 2045 7 },
      atP_inv _ _ _ rfl
        ⟨⟨rfl, by decide, by decide, .inl ⟨rfl, by rw [atP, List.length_replicate]; decide⟩⟩,
          ⟨rfl, by decide, by decide, by decide⟩⟩,
      rfl, ⟨_, .inl rfl⟩, by decide⟩,
    ⟨{ emptyClosed with cPort := { PortState.reset with phase := .run (.read 1) .K2 } }, rfl, ⟨_, .inl rfl⟩, by decide⟩⟩

/-- WRITE at W3 and W4, READFROMB at W4, and at W1 with a chunk of 0 bytes and one of `SIZE`. -/
theorem test_witness_WriteStoresAndPublishes :
    (∃ (i : Instr) (s : State), s.turn = .P ∧ isWriting i = true ∧ s.Inv ∧ s.cfgState = .ready ∧ s.phase = .run i .W3) ∧
      (∃ (n : Word) (s : State), s.turn = .P ∧ s.phase = .run (.write n) .W4) ∧
      (∃ s : State, s.turn = .P ∧ isWriting .readFromB = true ∧ s.phase = .run .readFromB .W4) ∧
      (∃ s : State, s.turn = .P ∧ s.phase = .run .readFromB .W1 ∧ s.p.n.toInt = 0 ∧ 0 ≤ s.size.toInt) ∧
      ∃ s : State, s.turn = .P ∧ s.phase = .run .readFromB .W1 ∧ 0 ≤ s.p.n.toInt ∧ s.p.n.toInt = s.size.toInt :=
  ⟨⟨.write 2, atP (.run (.write 2) .W3) writing, rfl, rfl, atP_inv _ _ _ rfl ⟨rfl, writing_operands _ _ rfl⟩, rfl, rfl⟩,
    ⟨2, atP (.run (.write 2) .W4) writing, rfl, rfl⟩, ⟨atP (.run .readFromB .W4) writing, rfl, rfl, rfl⟩,
    ⟨atP (.run .readFromB .W1), rfl, rfl, by decide, by decide⟩,
    ⟨atP (.run .readFromB .W1) { PLatches.reset with n := 2048 }, rfl, rfl, by decide, by decide⟩⟩

theorem test_witness_ReservationIsRecordedAndEnded :
    (∃ s : State, s.turn = .P ∧ s.phase = .run .rsve .V3) ∧ (∃ s : State, s.turn = .P ∧ s.phase = .run .readFrom .V3) ∧
      (∃ (k : Word) (s : State), s.turn = .P ∧ s.phase = .run (.publ k) .U2) ∧
      (∃ s : State, s.turn = .P ∧ s.phase = .run .readFrom .U2) ∧
      (∃ s : State, s.turn = .P ∧ s.phase = .run .readFrom .V1) ∧
      ∃ s : State, s.turn = .P ∧ s.Inv ∧ s.cfgState = .ready ∧ s.phase = .run .readFrom .U1 := by
  refine ⟨⟨atP (.run .rsve .V3), rfl, rfl⟩, ⟨atP (.run .readFrom .V3), rfl, rfl⟩, ⟨2, atP (.run (.publ 2) .U2), rfl, rfl⟩,
    ⟨atP (.run .readFrom .U2), rfl, rfl⟩, ⟨atP (.run .readFrom .V1), rfl, rfl⟩,
    ⟨{ atP (.run .readFrom .U1) writing with rsv := ⟨true, 2050, 2⟩ }, rfl, ?_, rfl, rfl⟩⟩
  exact ring_inv _ rfl rfl rfl (by rfl) rfl rfl rfl rfl rfl rfl
    (fun _ => ⟨rfl, by decide, by decide, by decide, by decide, by decide⟩)
    ⟨rfl, rfl, rfl, (by decide : (2 : Int) = (2 : Word).toInt), (by decide : (2 : Word).toInt ≤ (2 : Word).toInt)⟩ trivial
    rfl

theorem test_witness_ReadCopiesAndRetires :
    (∃ (cap : Word) (s : State), s.turn = .C ∧ s.Inv ∧ s.cfgState = .ready ∧ s.phase = .run (.read cap) .A3) ∧
      ∃ (cap : Word) (s : State), s.turn = .C ∧ s.phase = .run (.read cap) .A4 :=
  ⟨⟨4, atC (.run (.read 4) .A3) (reading 4), rfl,
      atC_inv _ _ _ rfl ⟨⟨4, rfl⟩, by decide, reading_held _ _⟩, rfl, rfl⟩,
    ⟨4, atC (.run (.read 4) .A4) (reading 4), rfl, rfl⟩⟩

/-- A view that wraps, one that is contiguous (2 bytes up to the physical end), an empty one, and one of WRITETO. -/
theorem test_witness_PeekAnswersView :
    (∃ (n : Word) (s : State), s.Inv ∧ s.cfgState = .ready ∧ s.turn = .C ∧ s.phase = .run (.peek n) .B3 ∧ n = 4) ∧
      (∃ (n : Word) (s : State), s.Inv ∧ s.cfgState = .ready ∧ s.turn = .C ∧ s.phase = .run (.peek n) .B3 ∧ n = 2) ∧
      (∃ (n : Word) (s : State), s.Inv ∧ s.cfgState = .ready ∧ s.turn = .C ∧ s.phase = .run (.peek n) .B3 ∧ n = 0) ∧
      ∃ s : State, s.Inv ∧ s.cfgState = .ready ∧ s.turn = .C ∧ s.phase = .run .writeTo .B3 := by
  have h : ∀ n : Word, 0 ≤ n.toInt → n.toInt ≤ 2048 → (atC (.run (.peek n) .B3) (reading n)).Inv := fun n h1 h2 =>
    atC_inv _ _ _ rfl
      ⟨⟨h1, .inr (.inl ⟨⟨n, rfl⟩, le_trans h2 (by decide : (2048 : Int) ≤ (2048 : Word).toInt)⟩)⟩, fun _ e => (by cases e),
        reading_held _ _⟩
  exact ⟨⟨4, _, h 4 (by decide) (by decide), rfl, rfl, rfl, rfl⟩,
    ⟨2, _, h 2 (by decide) (by decide), rfl, rfl, rfl, rfl⟩, ⟨0, _, h 0 (by decide) (by decide), rfl, rfl, rfl, rfl⟩,
    ⟨atC (.run .writeTo .B3) (reading 2048),
      atC_inv _ _ _ rfl
        ⟨⟨by decide, .inr (.inr ⟨rfl, (by decide : (2048 : Word).toInt = (2048 : Int))⟩)⟩, fun _ e => (by cases e),
          reading_held _ _⟩,
      rfl, rfl, rfl⟩⟩

theorem test_witness_CommitSteps :
    (∃ (n : Word) (s : State), s.turn = .C ∧ s.phase = .run (.commit n) .M1 ∧ s.c.n.toInt < 0) ∧
      (∃ (n : Word) (s : State), s.turn = .C ∧ s.phase = .run (.commit n) .M1 ∧ 0 ≤ s.c.n.toInt ∧
        s.size.toInt < s.c.n.toInt) ∧
      (∃ (n : Word) (s : State), s.turn = .C ∧ s.phase = .run (.commit n) .M1 ∧ 0 ≤ s.c.n.toInt ∧
        s.c.n.toInt = s.size.toInt) ∧
      (∃ (n : Word) (s : State), s.turn = .C ∧ s.phase = .run (.commit n) .M2 ∧
        s.sample.toInt - s.cseq.cursor.toInt + 1 = s.c.n.toInt) ∧
      (∃ (n : Word) (s : State), s.turn = .C ∧ s.phase = .run (.commit n) .M2 ∧
        s.c.n.toInt = s.sample.toInt - s.cseq.cursor.toInt) ∧
      ∃ (n : Word) (s : State), s.turn = .C ∧ s.phase = .run (.commit n) .M3 :=
  ⟨⟨-1, atC (.run (.commit (-1)) .M1) (reading (-1)), rfl, rfl, by decide⟩,
    ⟨2049, atC (.run (.commit 2049) .M1) (reading 2049), rfl, rfl, by decide, by decide⟩,
    ⟨2048, atC (.run (.commit 2048) .M1) (reading 2048), rfl, rfl, by decide, by decide⟩,
    ⟨5, atC (.run (.commit 5) .M2) (reading 5), rfl, rfl, by decide⟩,
    ⟨4, atC (.run (.commit 4) .M2) (reading 4), rfl, rfl, by decide⟩,
    ⟨4, atC (.run (.commit 4) .M3) (reading 4), rfl, rfl⟩⟩

/-- For LenAnswersLength, IdAnswersIdentifier and CloseSetsDone: an IDLE port of either kind, open and closed. -/
theorem test_witness_CommonCommands :
    (∃ s : State, s.Inv ∧ s.cfgState = .ready ∧ s.params.sampleLag = .none ∧ s.phase = .idle ∧ s.turn = .P) ∧
      (∃ s : State, s.Inv ∧ s.cfgState = .ready ∧ s.params.sampleLag = .none ∧ s.phase = .idle ∧ s.turn = .C) ∧
      (∃ s : State, s.phase = .run .len .L2 ∧ s.turn = .P) ∧ (∃ s : State, s.phase = .run .len .L2 ∧ s.turn = .C) ∧
      (∃ s t : State, s.cfgState = .ready ∧ s.phase = .idle ∧ s.done = true ∧ exec .close s = .next t) ∧
      ∃ (z : Word) (s : State) (w : Word), checkSize s.params z = .size w :=
  ⟨⟨ringIdle .P, ringIdle_inv _ _ _ _ _ rfl (by decide), rfl, rfl, rfl, rfl⟩,
    ⟨ringIdle .C, ringIdle_inv _ _ _ _ _ rfl (by decide), rfl, rfl, rfl, rfl⟩, ⟨atP (.run .len .L2), rfl, rfl⟩,
    ⟨atC (.run .len .L2), rfl, rfl⟩, ⟨ringIdle .C true, _, rfl, rfl, rfl, rfl⟩, ⟨4096, ring, 4096, by decide⟩⟩

theorem test_witness_SourceAnswerSteps :
    (∃ (a : SrcAnswer) (rest : List SrcAnswer) (s : State), s.turn = .P ∧ s.phase = .run .readFrom .F2 ∧
        s.env.source = a :: rest ∧ a.fits s.rsv.len.toInt = true) ∧
      (∃ (a : SrcAnswer) (rest : List SrcAnswer) (s : State), s.turn = .P ∧ s.phase = .run .readFromB .E1 ∧
        s.env.source = a :: rest ∧ a.fits s.params.rblk = true) ∧
      (∃ s : State, s.turn = .P ∧ s.phase = .run .readFrom .F4 ∧ s.p.err = .none) ∧
      (∃ s : State, s.turn = .P ∧ s.phase = .run .readFromB .E3 ∧ s.p.err = .eos) ∧
      ∃ (x : Byte) (s : State), s.turn = .P ∧ s.phase = .run .readFrom .F4 ∧ s.p.err = .ext x :=
  ⟨⟨⟨[7, 8], .none⟩, [], { atP (.run .readFrom .F2) with
        rsv := ⟨true, 2050, 2⟩, env := { Env.empty with source := [⟨[7, 8], .none⟩] } }, rfl, rfl, rfl, by decide⟩,
    ⟨⟨[7, 8], .ext 16⟩, [], { atP (.run .readFromB .E1) with
        env := { Env.empty with source := [⟨[7, 8], .ext 16⟩] } }, rfl, rfl, rfl, by decide⟩,
    ⟨atP (.run .readFrom .F4), rfl, rfl, rfl⟩,
    ⟨atP (.run .readFromB .E3) { PLatches.reset with err := .eos }, rfl, rfl, rfl⟩,
    ⟨255, atP (.run .readFrom .F4) { PLatches.reset with err := .ext 255 }, rfl, rfl, rfl⟩⟩

theorem test_witness_SinkAnswerSteps :
    (∃ (a : SinkAnswer) (rest : List SinkAnswer) (s : State), s.turn = .C ∧ s.phase = .run .writeTo .T2 ∧
        s.env.sink = a :: rest ∧ a.fits s.c.view = true) ∧
      (∃ s : State, s.turn = .C ∧ s.phase = .run .writeTo .T3 ∧ s.c.err = none) ∧
      (∃ (x : Byte) (s : State), s.turn = .C ∧ s.phase = .run .writeTo .T3 ∧ s.c.err = some x ∧
        s.params.commitOnSinkError = false) ∧
      ∃ (x : Byte) (s : State), s.turn = .C ∧ s.phase = .run .writeTo .T3 ∧ s.c.err = some x ∧
        s.params.commitOnSinkError = true :=
  ⟨⟨⟨1, some 16⟩, [], { atC (.run .writeTo .T2) { CLatches.reset with view := [1, 2] } with
        env := { Env.empty with sink := [⟨1, some 16⟩] } }, rfl, rfl, rfl, by decide⟩,
    ⟨atC (.run .writeTo .T3), rfl, rfl, rfl⟩,
    ⟨16, atC (.run .writeTo .T3) { CLatches.reset with err := some 16 }, rfl, rfl, rfl, rfl⟩,
    ⟨16, { atC (.run .writeTo .T3) { CLatches.reset with err := some 16 } with
        params := { commitOnSinkError := true } }, rfl, rfl, rfl, rfl⟩⟩

/-- The inner PEEK and COMMIT of WRITETO: B1 with `WBLK = SIZE`, M1 with 0 bytes, M2 with all that the bound covers, and M3
with and without an error of the sink. -/
theorem test_witness_SinkAnswerSteps_inner :
    (∃ s : State, s.turn = .C ∧ s.phase = .run .writeTo .B1 ∧ 0 ≤ s.c.n.toInt ∧ s.c.n.toInt = s.size.toInt) ∧
      (∃ s : State, s.turn = .C ∧ s.phase = .run .writeTo .M1 ∧ s.c.n.toInt = 0 ∧ s.c.n.toInt ≤ s.size.toInt) ∧
      (∃ s : State, s.turn = .C ∧ s.Inv ∧ s.cfgState = .ready ∧ s.phase = .run .writeTo .M2) ∧
      (∃ s : State, s.turn = .C ∧ s.phase = .run .writeTo .M3 ∧ s.c.err = none) ∧
      ∃ (x : Byte) (s : State), s.turn = .C ∧ s.phase = .run .writeTo .M3 ∧ s.c.err = some x := by
  refine ⟨⟨atC (.run .writeTo .B1) (reading 2048), rfl, rfl, by decide, by decide⟩,
    ⟨atC (.run .writeTo .M1), rfl, rfl, by decide, by decide⟩,
    ⟨{ ring with
        turn := .C, pseq := ⟨4, 0, List.replicate 6 0⟩, cseq := ⟨0, 0, List.replicate 6 0⟩,
        buf := [(0, 3), (1, 4), (2, 5), (3, 6)], c := { CLatches.reset with n := 4 },
        cPort := { PortState.reset with phase := .run .writeTo .M2, floor := 4 } }, rfl, ?_, rfl, rfl⟩,
    ⟨atC (.run .writeTo .M3), rfl, rfl, rfl⟩, ⟨16, atC (.run .writeTo .M3) { CLatches.reset with err := some 16 }, rfl, rfl,
      rfl⟩⟩
  refine ⟨by decide, fun _ => ?_, fun h => (by cases h)⟩
  refine ⟨⟨⟨11, by omega, by decide, by decide⟩, by decide⟩, by unfold State.RingInv; decide, by unfold State.GateInv; decide,
    fun h => (by cases h), ⟨by decide, by decide, by decide, by decide⟩, ?_, by unfold State.FloorInv; decide, trivial,
    ⟨rfl, .inl ⟨rfl, by decide⟩, by decide⟩⟩
  intro q h1 h2
  have l1 : (0 : Int) ≤ q := h1
  have l2 : q < 4 := h2
  interval_cases q <;> decide

theorem test_witness_BadCountIsAnswered :
    (∃ (n : Word) (s : State), s.cfgState = .ready ∧ s.phase = .idle ∧ s.turn = .P ∧ s.rsv.valid = false ∧
        n.toInt = -1) ∧
      (∃ (n : Word) (s : State), s.cfgState = .ready ∧ s.phase = .idle ∧ s.turn = .P ∧ s.rsv.valid = false ∧
        0 ≤ n.toInt ∧ n.toInt = s.size.toInt + 1) ∧
      ∃ (n : Word) (s : State), s.cfgState = .ready ∧ s.phase = .idle ∧ s.turn = .C ∧ 0 ≤ n.toInt ∧
        n.toInt = s.size.toInt + 1 :=
  ⟨⟨-1, ringIdle .P, rfl, rfl, rfl, rfl, by decide⟩, ⟨2049, ringIdle .P, rfl, rfl, rfl, rfl, by decide, by decide⟩,
    ⟨2049, ringIdle .C, rfl, rfl, rfl, by decide, by decide⟩⟩

/-- Room by the gate, and room only by a sample of the consumer cursor. -/
theorem test_witness_WriteRuns :
    (∃ (n : Word) (s : State), s.Inv ∧ s.cfgState = .ready ∧ s.params.sampleLag = .none ∧ s.turn = .P ∧
        s.phase = .idle ∧ s.rsv.valid = false ∧ 0 ≤ n.toInt ∧ n.toInt ≤ s.size.toInt ∧
        (s.pPort.payload.length : Int) = n.toInt ∧ n.toInt ≤ s.freeRegion ∧ s.FarFromHorizon ∧
        s.pseq.cursor.toInt + n.toInt - s.size.toInt ≤ s.pseq.gate.toInt) ∧
      ∃ (n : Word) (s : State), s.Inv ∧ s.cfgState = .ready ∧ s.params.sampleLag = .none ∧ s.turn = .P ∧
        s.phase = .idle ∧ s.rsv.valid = false ∧ 0 ≤ n.toInt ∧ n.toInt ≤ s.size.toInt ∧
        (s.pPort.payload.length : Int) = n.toInt ∧ n.toInt = s.freeRegion ∧ s.FarFromHorizon :=
  ⟨⟨3, ringIdle .P false [5, 6, 7], ringIdle_inv _ _ _ _ _ rfl (by decide), rfl, rfl, rfl, rfl, rfl, by decide,
      by decide, by decide, by decide, by unfold State.FarFromHorizon; decide, by decide⟩,
    ⟨2044, ringIdle .P false (List.replicate 2044 7), ringIdle_inv _ _ _ _ _ rfl (by decide), rfl, rfl, rfl, rfl, rfl,
      by decide, by decide, by rw [ringIdle, List.length_replicate]; decide, by decide,
      by unfold State.FarFromHorizon; decide⟩⟩

theorem test_witness_WriteEndsOnClosedRing :
    ∃ (n : Word) (s : State), s.Inv ∧ s.cfgState = .ready ∧ s.params.sampleLag = .none ∧ s.turn = .P ∧
      s.phase = .idle ∧ s.rsv.valid = false ∧ 0 ≤ n.toInt ∧ n.toInt ≤ s.size.toInt ∧
      (s.pPort.payload.length : Int) = n.toInt ∧ s.freeRegion < n.toInt ∧ s.done = true ∧ s.FarFromHorizon :=
  ⟨2045, ringIdle .P true (List.replicate 2045 7), ringIdle_inv _ _ _ _ _ rfl (by decide), rfl, rfl, rfl, rfl, rfl,
    by decide, by decide, by rw [ringIdle, List.length_replicate]; decide, by decide, rfl,
    by unfold State.FarFromHorizon; decide⟩

theorem test_witness_ReserveRuns :
    ∃ (s : State) (len : Int), s.Inv ∧ s.cfgState = .ready ∧ s.params.sampleLag = .none ∧ s.turn = .P ∧
      s.phase = .idle ∧ s.rsv.valid = false ∧
      len = min (s.params.rblk : Int) (s.size.toInt - s.idx s.pseq.cursor) ∧ len ≤ s.freeRegion ∧ s.FarFromHorizon :=
  ⟨ringIdle .P, 1024, ringIdle_inv _ _ _ _ _ rfl (by decide), rfl, rfl, rfl, rfl, rfl, by decide, by decide,
    by unfold State.FarFromHorizon; decide⟩

theorem test_witness_PublishRuns :
    ∃ (k : Word) (s : State), s.Inv ∧ s.cfgState = .ready ∧ s.turn = .P ∧ s.phase = .idle ∧ s.rsv.valid = true ∧
      0 ≤ k.toInt ∧ k.toInt ≤ s.rsv.len.toInt ∧ (s.pPort.payload.length : Int) = k.toInt := by
  refine ⟨2, { ringIdle .P false [5, 6] with rsv := ⟨true, 2050, 2⟩ }, ?_, rfl, rfl, rfl, rfl, by decide, by decide,
    by decide⟩
  exact ring_inv _ rfl rfl rfl (by decide) rfl rfl rfl rfl rfl rfl
    (fun _ => ⟨rfl, by decide, by decide, by decide, by decide, by decide⟩) trivial trivial rfl

theorem test_witness_ReadRuns :
    ∃ (cap : Word) (s : State) (m : Int), s.Inv ∧ s.cfgState = .ready ∧ s.params.sampleLag = .none ∧ s.turn = .C ∧
      s.phase = .idle ∧ 0 ≤ cap.toInt ∧ s.cseq.cursor.toInt < s.pseq.cursor.toInt ∧
      m = min (min cap.toInt s.length) (s.size.toInt - s.idx s.cseq.cursor) ∧ 1 ≤ cap.toInt :=
  ⟨4096, ringIdle .C, 2, ringIdle_inv _ _ _ _ _ rfl (by decide), rfl, rfl, rfl, rfl, by decide, by decide, by decide,
    by decide⟩

theorem test_witness_ReadersEndOnClosedEmptyRing :
    ∃ s : State, s.Inv ∧ s.cfgState = .ready ∧ s.params.sampleLag = .none ∧ s.turn = .C ∧ s.phase = .idle ∧
      s.cseq.cursor = s.pseq.cursor ∧ s.done = true :=
  ⟨emptyClosed, emptyClosed_inv, rfl, rfl, rfl, rfl, rfl, rfl⟩

/-- `n = LEN` and `n = LEN + 1`. -/
theorem test_witness_CommitRuns :
    (∃ (n : Word) (s : State), s.Inv ∧ s.cfgState = .ready ∧ s.params.sampleLag = .none ∧ s.turn = .C ∧
        s.phase = .idle ∧ 0 ≤ n.toInt ∧ n.toInt ≤ s.size.toInt ∧ n.toInt = s.length) ∧
      ∃ (n : Word) (s : State), s.Inv ∧ s.cfgState = .ready ∧ s.params.sampleLag = .none ∧ s.turn = .C ∧
        s.phase = .idle ∧ 0 ≤ n.toInt ∧ n.toInt ≤ s.size.toInt ∧ s.length < n.toInt :=
  ⟨⟨4, ringIdle .C, ringIdle_inv _ _ _ _ _ rfl (by decide), rfl, rfl, rfl, rfl, by decide, by decide, by decide⟩,
    ⟨5, ringIdle .C, ringIdle_inv _ _ _ _ _ rfl (by decide), rfl, rfl, rfl, rfl, by decide, by decide, by decide⟩⟩

theorem test_witness_PeekThenCommitRuns :
    ∃ (n : Word) (s : State), s.Inv ∧ s.cfgState = .ready ∧ s.params.sampleLag = .none ∧ s.turn = .C ∧
      s.phase = .idle ∧ 0 ≤ n.toInt ∧ n.toInt ≤ s.size.toInt ∧ s.cseq.cursor.toInt < s.pseq.cursor.toInt :=
  ⟨2048, ringIdle .C, ringIdle_inv _ _ _ _ _ rfl (by decide), rfl, rfl, rfl, rfl, by decide, by decide, by decide⟩

/-- A source that answers bytes together with its end. -/
def sourceEnv : Env := { Env.empty with source := [⟨[5, 6], .eos⟩] }

/-- For ReadFromRuns and ReadFromBRuns. -/
theorem test_witness_ReadFromRuns :
    ∃ (s : State) (a : SrcAnswer) (rest : List SrcAnswer) (len : Int), s.Inv ∧ s.cfgState = .ready ∧
      s.params.sampleLag = .none ∧ s.turn = .P ∧ s.phase = .idle ∧ s.rsv.valid = false ∧
      len = min (s.params.rblk : Int) (s.size.toInt - s.idx s.pseq.cursor) ∧ len ≤ s.freeRegion ∧
      s.FarFromHorizon ∧ s.env.source = a :: rest ∧ a.fits len = true ∧ a.err = .eos ∧
      (a.data.length : Int) ≤ s.freeRegion ∧ a.fits s.params.rblk = true :=
  ⟨ringIdle .P false [] sourceEnv, ⟨[5, 6], .eos⟩, [], 1024, ringIdle_inv _ _ _ _ _ rfl (by decide), rfl, rfl, rfl, rfl,
    rfl, by decide, by decide, by unfold State.FarFromHorizon; decide, rfl, by decide, rfl, by decide, by decide⟩

/-- Two views, of `WBLK = 3` bytes and of the one byte left. -/
theorem test_witness_WriteToDrainsClosedRing :
    ∃ (s : State) (as rest : List SinkAnswer), s.Inv ∧ s.cfgState = .ready ∧
      s.params.sampleLag = .none ∧ s.turn = .C ∧ s.phase = .idle ∧ s.done = true ∧ s.env.sink = as ++ rest ∧
      as.map SinkAnswer.count = viewSizes s.params.wblk s.length.toNat ∧ (∀ a ∈ as, a.err = none) ∧ as.length = 2 :=
  ⟨ringIdle .C true [] { Env.empty with sink := [⟨3, none⟩, ⟨1, none⟩, ⟨9, none⟩] } { wblk := 3 }, [⟨3, none⟩, ⟨1, none⟩],
    [⟨9, none⟩], ringIdle_inv _ _ _ _ _ rfl (by decide), rfl, rfl, rfl, rfl, rfl, rfl, by decide, by decide, rfl⟩

/-- With and without `WRITETO_COMMIT_ON_SINK_ERROR`. -/
theorem test_witness_WriteToReportsSinkError (q : Params) (hq : q = {} ∨ q = { commitOnSinkError := true }) :
    ∃ (s : State) (a : SinkAnswer) (rest : List SinkAnswer) (x : Byte), s.Inv ∧ s.cfgState = .ready ∧
      s.params = q ∧ s.params.sampleLag = .none ∧ s.turn = .C ∧ s.phase = .idle ∧ 1 ≤ s.length ∧
      s.env.sink = a :: rest ∧ (a.count : Int) ≤ min (s.params.wblk : Int) s.length ∧ a.err = some x ∧
      16 ≤ x.toNat := by
  refine ⟨ringIdle .C false [] { Env.empty with sink := [⟨3, some 16⟩] } q, ⟨3, some 16⟩, [], 16, ?_, rfl, rfl, ?_, rfl,
    rfl, (by decide : (1 : Int) ≤ (2050 : Word).toInt - (2046 : Word).toInt), rfl, ?_, rfl, by decide⟩
  all_goals rcases hq with rfl | rfl
  · exact ringIdle_inv _ _ _ _ _ rfl (by decide)
  · exact ringIdle_inv _ _ _ _ _ rfl (by decide)
  all_goals first | rfl | decide

/-- For StepKeepsSoundness, SoundStepsNeverFault, CursorsNeverFall, WindowPartition and StreamIsConserved: a step from a
sound state that publishes. -/
theorem test_witness_SoundSteps :
    ∃ s t : State, s.Inv ∧ s.cfgState = .ready ∧ s.resetNext = false ∧ step s = .next t ∧ s.publishes = [5, 6] := by
  refine ⟨{ atP (.run (.write 2) .W4) writing with env := { Env.empty with sched := [.run .P 0] } }, _, ?_, rfl, rfl, rfl,
    rfl⟩
  refine ring_inv _ rfl rfl rfl (by rfl) rfl rfl rfl rfl rfl rfl (fun h => (by cases h))
    ⟨rfl, rfl, (writing_operands (.write 2) .W4 rfl).1, (writing_operands (.write 2) .W4 rfl).2, ?_⟩ trivial rfl
  intro j hj
  have hj2 : j < 2 := hj
  interval_cases j <;> decide

theorem test_witness_OperandsStayLatched :
    ∃ s t : State, s.OperandInv ∧ step s = .next t ∧ s.pPort.phase = .run (.write 2) .G1 := by
  refine ⟨{ atP (.run (.write 2) .G1) writing with
      env := { Env.empty with sched := [.run .P 0] },
      pPort := { PortState.reset with phase := .run (.write 2) .G1, payload := [5, 6] } }, _, ?_, rfl, rfl⟩
  refine ⟨?_, ?_, ?_, ?_, ?_⟩ <;> intro n l h <;> cases h
  exact ⟨rfl, by decide⟩

theorem test_witness_Reachable : ∃ s, Reachable s ∧ s.cfgState = .ready :=
  ⟨_, Reachable.boot Config.defaultParams 2048 7 Env.empty [] [] (by decide), by decide⟩

/-- For EveryCommandStepCompletes: a command at its acceptance, and one at each kind of step. -/
theorem test_witness_EveryCommandStepCompletes :
    (∃ (i : Instr) (s : State), s.Inv ∧ s.cfgState = .ready ∧ s.FarFromHorizon ∧ s.ContractsKept ∧
        accepts s.turn i = true ∧ s.phase = .idle ∧ admitted s.rsv i = true ∧
        i.payloadFits s.size (s.port s.turn).payload = true) ∧
      ∃ (i : Instr) (s : State) (l : Label), s.Inv ∧ s.cfgState = .ready ∧ s.FarFromHorizon ∧ s.ContractsKept ∧
        accepts s.turn i = true ∧ s.phase = .run i l :=
  ⟨⟨.readFrom, ringIdle .P false [] sourceEnv, ringIdle_inv _ _ _ _ _ rfl (by decide), rfl,
      by unfold State.FarFromHorizon; decide, ⟨fun _ _ _ h => (by cases h), fun _ _ _ h => (by cases h),
        fun _ _ _ h => (by cases h)⟩, rfl, rfl, rfl, rfl⟩,
    ⟨.write 2, atP (.run (.write 2) .W3) writing, .W3, atP_inv _ _ _ rfl ⟨rfl, writing_operands _ _ rfl⟩, rfl,
      by unfold State.FarFromHorizon; decide, ⟨fun _ _ h => (by cases h), fun _ _ h => (by cases h),
        fun _ _ h => (by cases h)⟩, rfl, rfl⟩⟩

theorem test_witness_ConfigurationOutcomes :
    ∃ q : Params, q.ok = true ∧ (∀ k : Nat, ((3000 : Word)).toInt ≠ 2 ^ k) ∧ ((1024 : Word)).toInt = 2 ^ 10 ∧
      ((1024 : Word)).toInt < q.minSize ∧ ((2048 : Word)).toInt = 2 ^ 11 ∧ (q.minSize : Int) ≤ ((2048 : Word)).toInt := by
  refine ⟨{}, by decide, fun k h => ?_, by decide, by decide, by decide, by decide⟩
  have e : ((3000 : Word)).toInt = 3000 := by decide
  rw [e] at h
  rcases Nat.lt_or_ge k 12 with hk | hk
  · interval_cases k <;> omega
  · have h1 : (2 : Int) ^ 12 ≤ 2 ^ k := pow_le_pow_right₀ (by norm_num) hk
    norm_num at h1
    omega

theorem test_witness_HintIsLeastAcceptedSize :
    ∃ (q : Params) (s s' : Int), q.ok = true ∧ 1 ≤ s ∧ s = 2 ^ 62 ∧ s' = 2 ^ 62 + 1 :=
  ⟨{}, 2 ^ 62, 2 ^ 62 + 1, by decide, by norm_num, rfl, rfl⟩

theorem test_witness_ResetDuringUse :
    ∃ (s : State) (z id : Word) (rest : List Turn) (w : Word), s.env.sched = .rst z id :: rest ∧
      checkSize s.params z = .size w ∧ s.pPort.phase ≠ .idle :=
  ⟨{ atP (.run (.write 2) .G2) writing with env := { Env.empty with sched := [.rst 4096 9] } }, 4096, 9, [], 4096, rfl,
    by decide, by decide⟩

theorem test_witness_FailedConfigurationAnswersIllegal :
    (∃ (s : State) (z : Word) (e : Status) (h : Int), checkSize s.params z = .fail e h) ∧
      ∃ (s : State) (a : Port) (lag : Nat) (rest : List Turn) (pr : Presented) (prs : List Presented),
        s.cfgState = .cfgFail ∧ s.env.sched = .run a lag :: rest ∧ (s.port a).phase = .idle ∧
          (s.port a).script = pr :: prs :=
  ⟨⟨ring, 1000, .notPow2, 2048, by decide⟩,
    ⟨{ presented .C 0x40000000000000001 with cfgState := .cfgFail }, .C, 0, [], ⟨0x40000000000000001, []⟩, [], rfl, rfl,
      rfl, rfl⟩⟩

theorem test_witness_WorkedConfigurations : ∃ s : State, s.params = Config.defaultParams := ⟨ring, rfl⟩

theorem test_witness_SequenceLinesFillTheirBytes :
    (∃ s t : State, s.LineInv ∧ s.cfgState = .ready ∧ step s = .next t) ∧
      (∃ (q : Params) (l : SeqLine), l.pad.length = q.padWords ∧ q.lineBytes = 16 ∧ q.lineBytes % 8 = 0) ∧
      ∃ (q : Params) (a b size : Nat), placed q a b = true ∧ 1 ≤ size ∧ size = q.lineBytes :=
  ⟨⟨ring, ring, fun _ => ⟨rfl, rfl⟩, rfl, rfl⟩, ⟨{ lineBytes := 16 }, ⟨0, 0, []⟩, rfl, rfl, rfl⟩,
    ⟨{}, 100, 164, 64, by decide, by decide, rfl⟩⟩

/-! ### Witnesses: infinite runs (20_memory.md R67) -/

/-- The run in which the environment lets agent `a` move at every step and hands over nothing else. -/
def driven (a : Port) (s : State) : Nat → State
  | 0 => { s with env := { s.env with sched := [.run a 0] } }
  | n + 1 =>
    match step (driven a s n) with
    | .next t => { t with env := { t.env with sched := [.run a 0] } }
    | .fault _ => driven a s n
    | .refused _ => driven a s n

/-- Agent `a` moves next, by a step that answers and uses up the schedule. -/
def goesOn (a : Port) (s : State) : Bool :=
  decide (s.mover = some a) &&
    match step s with
    | .next t => decide (t.env.sched = [])
    | .fault _ => false
    | .refused _ => false

/-- The port of `b` is IDLE with nothing to be presented, and no external call is outstanding without an answer. -/
def calm (b : Port) (s : State) : Bool :=
  decide ((s.port b).phase = .idle) && decide ((s.port b).script = []) &&
    (!decide (s.pPort.phase = .run .readFrom .F2) && !decide (s.pPort.phase = .run .readFromB .E1) ||
      !decide (s.env.source = [])) &&
    (!decide (s.cPort.phase = .run .writeTo .T2) || !decide (s.env.sink = []))

/-- A driven run that repeats itself shows all its states before the first repetition. -/
theorem driven_all (a : Port) (s : State) (f : State → Bool) (n p : Nat) (hp : 0 < p)
    (hr : driven a s (n + p) = driven a s n) (h : ∀ m, m < n + p → f (driven a s m) = true) (m : Nat) :
    f (driven a s m) = true := by
  have shift : ∀ k, driven a s (n + p + k) = driven a s (n + k) := by
    intro k
    induction k with
    | zero => exact hr
    | succ k ih =>
      have e1 : driven a s (n + p + k + 1) = driven a s (n + k + 1) := by rw [driven, driven, ih]
      exact e1
  induction m using Nat.strong_induction_on with
  | _ m ih =>
    rcases Nat.lt_or_ge m (n + p) with hm | hm
    · exact h m hm
    · have e := shift (m - (n + p))
      have e1 : n + p + (m - (n + p)) = m := by omega
      rw [e1] at e
      rw [e]
      exact ih _ (by omega)

theorem driven_isRun (a : Port) (s : State) (h : ∀ m, goesOn a (driven a s m) = true) : IsRun (driven a s) := by
  refine ⟨fun n => ?_, fun n => ?_⟩
  · have hn := h n
    simp only [goesOn, Bool.and_eq_true, decide_eq_true_eq] at hn
    rw [hn.1]
    rfl
  · have hn := (Bool.and_eq_true _ _ ▸ h n : _ ∧ _).2
    rw [driven]
    split at hn
    · next t e =>
      have ht : t.env.sched = [] := by simpa using hn
      rw [e]
      exact ⟨t, rfl, [.run a 0], [], [], [], [], by simp [ht]⟩
    · cases hn
    · cases hn

/-- A driven run in which the other agent has nothing to do, no call goes unanswered, and the driven agent comes to rest
is fair. -/
theorem driven_fair (a b : Port) (s : State) (n : Nat) (hab : ∀ x : Port, x = a ∨ x = b)
    (h : ∀ m, goesOn a (driven a s m) = true) (hc : ∀ m, calm b (driven a s m) = true)
    (hr : driven a s (n + 1) = driven a s n) (hl : (driven a s n).loaded .P = none ∧ (driven a s n).loaded .C = none) : Fair (driven a s) := by
  have rest : ∀ m, n ≤ m → driven a s m = driven a s n := by
    intro m hm
    induction m, hm using Nat.le_induction with
    | base => rfl
    | succ m hm ih => rw [driven, ih, ← driven, hr]
  have hcalm : ∀ m, _ := fun m => by
    have := hc m
    simp only [calm, Bool.and_eq_true, Bool.or_eq_true, Bool.not_eq_true', decide_eq_true_eq, decide_eq_false_iff_not] at this
    exact this
  refine ⟨fun x m hx => ?_, fun x m hx => ?_, fun m hm => ⟨m, le_refl m, ?_⟩, fun m hm => ⟨m, le_refl m, ?_⟩⟩
  · rcases hab x with rfl | rfl
    · have hm := h m
      simp only [goesOn, Bool.and_eq_true, decide_eq_true_eq] at hm
      exact ⟨m, le_refl m, hm.1⟩
    · rcases hx with hx | hx
      · exact absurd (hcalm m).1.1.1 hx
      · exact absurd (hcalm m).1.1.2 hx
  · obtain ⟨k, hk, hs⟩ := hx n
    rw [rest k hk] at hs
    cases x <;> simp [hl] at hs
  · rcases (hcalm m).1.2 with hn | hn
    · rcases hm with hm | hm
      · exact absurd hm hn.1
      · exact absurd hm hn.2
    · exact hn
  · rcases (hcalm m).2 with hn | hn
    · exact absurd hm hn
    · exact hn

/-- The two of them together, from the first `n + 1` states. -/
theorem driven_ok (a b : Port) (s : State) (n : Nat) (hab : ∀ x : Port, x = a ∨ x = b)
    (h : ∀ m, m < n + 1 → goesOn a (driven a s m) = true) (hc : ∀ m, m < n + 1 → calm b (driven a s m) = true)
    (hr : driven a s (n + 1) = driven a s n) (hl : (driven a s n).loaded .P = none ∧ (driven a s n).loaded .C = none) :
    IsRun (driven a s) ∧ Fair (driven a s) :=
  ⟨driven_isRun a s (driven_all a s _ n 1 (by omega) hr h),
    driven_fair a b s n hab (driven_all a s _ n 1 (by omega) hr h) (driven_all a s _ n 1 (by omega) hr hc) hr hl⟩

theorem port_PC (x : Port) : x = .P ∨ x = .C := by cases x <;> simp
theorem port_CP (x : Port) : x = .C ∨ x = .P := by cases x <;> simp

/-- A WRITE of 2045 bytes in the small ring, which lacks one byte of room. -/
def blocked : State :=
  { atP (.run (.write 2045) .G2) { writing with n := 2045, next := 4095, wrap := 2047, c := 2046, data := [] } with
    pPort := { PortState.reset with phase := .run (.write 2045) .G2, floor := 2046 } }

/-- A waiting WRITE with room, and one that ends because the ring is closed. -/
theorem test_witness_WaitingCommandsComplete_producer :
    (∃ u : Nat → State, (IsRun u ∧ Fair u) ∧ (u 0).pPort.phase = .run (.write 2) .G2 ∧
        (u 0).p.wrap.toInt ≤ (u 0).cseq.cursor.toInt) ∧
      ∃ u : Nat → State, (IsRun u ∧ Fair u) ∧ (u 0).pPort.phase = .run (.write 2045) .G2 ∧ (u 0).done = true := by
  refine ⟨⟨driven .P (atP (.run (.write 2) .G2) writing), ?_, rfl, by decide⟩,
    ⟨driven .P { blocked with done := true }, ?_, rfl, rfl⟩⟩
  · exact driven_ok .P .C _ 4 port_PC (by decide) (by decide) (by decide) (by decide)
  · exact driven_ok .P .C _ 2 port_PC (by decide) (by decide) (by decide) (by decide)

/-- A waiting READ with data, and one that ends because the ring is closed. -/
theorem test_witness_WaitingCommandsComplete_consumer :
    (∃ u : Nat → State, (IsRun u ∧ Fair u) ∧ (u 0).cPort.phase = .run (.read 4) .K2 ∧
        (u 0).c.cpos.toInt < (u 0).pseq.cursor.toInt) ∧
      ∃ u : Nat → State, (IsRun u ∧ Fair u) ∧ (u 0).cPort.phase = .run (.read 4) .K2 ∧ (u 0).done = true := by
  refine ⟨⟨driven .C (atC (.run (.read 4) .K2) (reading 4)), ?_, rfl, by decide⟩,
    ⟨driven .C { emptyClosed with cPort := { PortState.reset with phase := .run (.read 4) .K2 } }, ?_, rfl, rfl⟩⟩
  · exact driven_ok .C .P _ 4 port_CP (by decide) (by decide) (by decide) (by decide)
  · exact driven_ok .C .P _ 2 port_CP (by decide) (by decide) (by decide) (by decide)

/-- READFROM, READFROMB and WRITETO with a call that is answered. -/
theorem test_witness_WaitingCommandsComplete_calls :
    (∃ u : Nat → State, (IsRun u ∧ Fair u) ∧ (u 0).pPort.phase = .run .readFrom .F2) ∧
      (∃ u : Nat → State, (IsRun u ∧ Fair u) ∧ (u 0).pPort.phase = .run .readFromB .E1) ∧
      ∃ u : Nat → State, (IsRun u ∧ Fair u) ∧ (u 0).cPort.phase = .run .writeTo .T2 := by
  refine ⟨⟨driven .P { atP (.run .readFrom .F2) with rsv := ⟨true, 2050, 2⟩, env := sourceEnv }, ?_, rfl⟩,
    ⟨driven .P { atP (.run .readFromB .E1) with env := sourceEnv }, ?_, rfl⟩,
    ⟨driven .C { atC (.run .writeTo .T2) { CLatches.reset with m := 2, view := [1, 2] } with
      env := { Env.empty with sink := [⟨1, some 16⟩] } }, ?_, rfl⟩⟩
  · exact driven_ok .P .C _ 4 port_PC (by decide) (by decide) (by decide) (by decide)
  · exact driven_ok .P .C _ 7 port_PC (by decide) (by decide) (by decide) (by decide)
  · exact driven_ok .C .P _ 2 port_CP (by decide) (by decide) (by decide) (by decide)

/-- A READ that waits in an empty ring. -/
def starving : State :=
  { emptyClosed with done := false, cPort := { PortState.reset with phase := .run (.read 4) .K2 } }

/-- A WRITE that goes round in its wait for ever, and a READ that waits for ever while only the producer moves. -/
theorem test_witness_WaitingCommandsComplete_forever :
    (∃ u : Nat → State, IsRun u ∧ (u 0).pPort.phase = .run (.write 2045) .G2 ∧
        ∀ m, (u m).done = false ∧ (u m).cseq.cursor.toInt < (u 0).p.wrap.toInt) ∧
      ∃ u : Nat → State, IsRun u ∧ (u 0).cPort.phase = .run (.read 4) .K2 ∧
        ∀ m, (u m).done = false ∧ (u m).pseq.cursor.toInt ≤ (u 0).c.cpos.toInt := by
  have hp := driven_all .P blocked
    (fun s => !s.done && decide (s.cseq.cursor.toInt < (driven .P blocked 0).p.wrap.toInt)) 0 2 (by omega) (by decide)
    (by decide)
  have hc := driven_all .P starving
    (fun s => !s.done && decide (s.pseq.cursor.toInt ≤ (driven .P starving 0).c.cpos.toInt)) 1 1 (by omega) (by decide)
    (by decide)
  simp only [Bool.and_eq_true, Bool.not_eq_true', decide_eq_true_eq] at hp hc
  exact ⟨⟨driven .P blocked, driven_isRun _ _ (driven_all _ _ _ 0 2 (by omega) (by decide) (by decide)), rfl, hp⟩,
    ⟨driven .P starving, driven_isRun _ _ (driven_all _ _ _ 1 1 (by omega) (by decide) (by decide)), rfl, hc⟩⟩

end Sys2Proof.Tests
end

section
/-! PROOFS, family 00_scope.md. What the steps can do, the configuration they keep, and the sequence lines. -/

namespace Sys2Proof.Machine

/-! ### What the steps can do

One inversion lemma per step function that Laws/Ops.lean does not treat, in the order of the model. -/

theorem goto_eq_next {l : Label} {s t : State} : goto l s = .next t ↔ s.goto l = t := by
  simp [goto]

theorem respond_eq_next {r : Response} {s t : State} : respond r s = .next t ↔ s.respond r = t := by
  simp [respond]

/-- What one step of LEN can do (43_common_commands.md R126). -/
theorem lenStep_next {l : Label} {s t : State} (h : lenStep l s = .next t) :
    (l = .L1 ∧ s.turn = .P ∧ t = (s.setP { s.p with ppos := s.pseq.cursor }).goto .L2) ∨
      (l = .L1 ∧ s.turn = .C ∧ t = (s.setC { s.c with cpos := s.cseq.cursor }).goto .L2) ∨
      (l = .L2 ∧ s.turn = .P ∧
        t = (s.noteSample.setP { s.p with c := s.sample }).respond
            ⟨.ok, narrow (s.p.ppos.toInt - s.sample.toInt), 0, []⟩) ∨
      (l = .L2 ∧ s.turn = .C ∧
        t = (s.noteSample.setC { s.c with ppos := s.sample }).respond
            ⟨.ok, narrow (s.sample.toInt - s.c.cpos.toInt), 0, []⟩) := by
  unfold lenStep at h
  split at h
  · next ht => exact .inl ⟨rfl, ht, (goto_eq_next.1 h).symm⟩
  · next ht => exact .inr (.inl ⟨rfl, ht, (goto_eq_next.1 h).symm⟩)
  · next ht => exact .inr (.inr (.inl ⟨rfl, ht, (respond_eq_next.1 h).symm⟩))
  · next ht => exact .inr (.inr (.inr ⟨rfl, ht, (respond_eq_next.1 h).symm⟩))
  · cases h

/-- What the one step of ID can do (R127). -/
theorem identStep_next {l : Label} {s t : State} (h : identStep l s = .next t) :
    l = .I1 ∧ t = s.respond ⟨.ok, s.ident, 0, []⟩ := by
  unfold identStep at h
  split at h
  · exact ⟨rfl, (respond_eq_next.1 h).symm⟩
  · cases h

/-- What the one step of CLOSE can do (R128). -/
theorem closeStep_next {l : Label} {s t : State} (h : closeStep l s = .next t) :
    l = .C1 ∧ t = s.setDone.respond ⟨.ok, 0, 0, []⟩ := by
  unfold closeStep at h
  split at h
  · exact ⟨rfl, (respond_eq_next.1 h).symm⟩
  · cases h

/-- What one step of READ can do (41_consumer_commands.md R108). -/
theorem readStep_next {ret : Response → State → Out} {l : Label} {s t : State} (h : readStep ret l s = .next t) :
    (l = .A1 ∧ s.c.n.toInt < 0 ∧ ret ⟨.neg, 0, 0, []⟩ s = .next t) ∨
      (l = .A1 ∧ 0 ≤ s.c.n.toInt ∧ t = s.goto .K1) ∨
      (l = .A3 ∧ ∃ m out, m = readLen s.c.n.toInt s.c.avail.toInt s.size.toInt (s.idx s.c.cpos) ∧
        memRead s.buf s.sizeNat (s.idx s.c.cpos) m.toNat = .ok out ∧
        t = (s.setC { s.c with start := narrow (s.idx s.c.cpos), m := narrow m, view := out }).goto .A4) ∨
      (l = .A4 ∧
        ret ⟨.ok, s.c.m, 0, s.c.view⟩ (s.storeCseq (narrow (s.c.cpos.toInt + s.c.m.toInt))) = .next t) ∨
      cwaitStep .A3 (ret ⟨.eos, 0, 0, []⟩) l s = .next t := by
  unfold readStep at h
  split at h
  · split at h
    · next hn => exact .inl ⟨rfl, hn, h⟩
    · next hn => exact .inr (.inl ⟨rfl, by omega, (goto_eq_next.1 h).symm⟩)
  · simp only at h
    split at h
    · next out hm => exact .inr (.inr (.inl ⟨rfl, _, out, rfl, hm, (goto_eq_next.1 h).symm⟩))
    · cases h
  · exact .inr (.inr (.inr (.inl ⟨rfl, h⟩)))
  · exact .inr (.inr (.inr (.inr h)))

/-- What one step of PEEK can do (R110). -/
theorem peekStep_next {ret : Response → State → Out} {l : Label} {s t : State} (h : peekStep ret l s = .next t) :
    (l = .B1 ∧ ∃ e, argError s.size.toInt s.c.n.toInt = some e ∧ ret ⟨e, 0, 0, []⟩ s = .next t) ∨
      (l = .B1 ∧ argError s.size.toInt s.c.n.toInt = none ∧ t = s.goto .K1) ∨
      (l = .B3 ∧ ∃ m start s', m = min s.c.n.toInt s.c.avail.toInt ∧ start = s.idx s.c.cpos ∧
        s' = s.setC { s.c with m := narrow m, start := narrow start } ∧
        ((m = 0 ∧ ret ⟨.ok, 0, 0, []⟩ s' = .next t) ∨
          (m ≠ 0 ∧ contiguous s.sizeNat start m.toNat = true ∧ ∃ view,
            memRead s.buf s.sizeNat start m.toNat = .ok view ∧
            ret ⟨peekStatus m s.c.n.toInt, narrow m, viewAux false start, view⟩ s' = .next t) ∨
          (m ≠ 0 ∧ contiguous s.sizeNat start m.toNat = false ∧ ∃ view tmp,
            splitCopy s.buf s.tmp s.sizeNat start m.toNat = .ok (view, tmp) ∧
            ret ⟨peekStatus m s.c.n.toInt, narrow m, viewAux true 0, view⟩ (s'.setTmp tmp) = .next t))) ∨
      cwaitStep .B3 (ret ⟨.eos, 0, 0, []⟩) l s = .next t := by
  unfold peekStep at h
  split at h
  · split at h
    · next e he => exact .inl ⟨rfl, e, he, h⟩
    · next he => exact .inr (.inl ⟨rfl, he, (goto_eq_next.1 h).symm⟩)
  · simp only at h
    refine .inr (.inr (.inl ⟨rfl, _, _, _, rfl, rfl, rfl, ?_⟩))
    split at h
    · next hm => exact .inl ⟨hm, h⟩
    next hm =>
    split at h
    · next hc =>
      split at h
      · next view hv => exact .inr (.inl ⟨hm, hc, view, hv, h⟩)
      · cases h
    · next hc =>
      split at h
      · next view tmp hv => exact .inr (.inr ⟨hm, by simpa using hc, view, tmp, hv, h⟩)
      · cases h
  · exact .inr (.inr (.inr h))

/-- What one step of COMMIT can do (R112). -/
theorem commitStep_next {ret : Response → State → Out} {l : Label} {s t : State}
    (h : commitStep ret l s = .next t) :
    (l = .M1 ∧ ∃ e, argError s.size.toInt s.c.n.toInt = some e ∧ ret ⟨e, 0, 0, []⟩ s = .next t) ∨
      (l = .M1 ∧ argError s.size.toInt s.c.n.toInt = none ∧ t = s.goto .M2) ∨
      (l = .M2 ∧ ∃ s', s' = s.noteSample.setC { s.c with cpos := s.cseq.cursor, ppos := s.sample } ∧
        ((s.c.n.toInt ≤ s.sample.toInt - s.cseq.cursor.toInt ∧ t = s'.goto .M3) ∨
          (s.sample.toInt - s.cseq.cursor.toInt < s.c.n.toInt ∧ ret ⟨.insuf, 0, 0, []⟩ s' = .next t))) ∨
      (l = .M3 ∧ ret ⟨.ok, s.c.n, 0, []⟩ (s.storeCseq (narrow (s.c.cpos.toInt + s.c.n.toInt))) = .next t) := by
  unfold commitStep at h
  split at h
  · split at h
    · next e he => exact .inl ⟨rfl, e, he, h⟩
    · next he => exact .inr (.inl ⟨rfl, he, (goto_eq_next.1 h).symm⟩)
  · simp only at h
    refine .inr (.inr (.inl ⟨rfl, _, rfl, ?_⟩))
    split at h
    · next hn => exact .inl ⟨hn, (goto_eq_next.1 h).symm⟩
    · next hn => exact .inr ⟨by omega, h⟩
  · exact .inr (.inr (.inr ⟨rfl, h⟩))
  · cases h

/-- What one step of WRITE can do (40_producer_commands.md R92). -/
theorem writeStep_next {ret : Response → State → Out} {l : Label} {s t : State} (h : writeStep ret l s = .next t) :
    (l = .W1 ∧ ∃ e, argError s.size.toInt s.p.n.toInt = some e ∧ ret ⟨e, 0, 0, []⟩ s = .next t) ∨
      (l = .W1 ∧ argError s.size.toInt s.p.n.toInt = none ∧ t = s.goto .G1) ∨
      (l = .W3 ∧ ∃ m, ringCopy s.buf s.sizeNat (s.idx s.p.ppos) s.p.data = .ok m ∧ t = (s.setBuf m).goto .W4) ∨
      (l = .W4 ∧ ret ⟨.ok, s.p.n, 0, []⟩ (s.storePseq s.p.next) = .next t) ∨
      gateStep .W3 (ret ⟨.eos, 0, 0, []⟩) l s = .next t := by
  unfold writeStep at h
  split at h
  · split at h
    · next e he => exact .inl ⟨rfl, e, he, h⟩
    · next he => exact .inr (.inl ⟨rfl, he, (goto_eq_next.1 h).symm⟩)
  · split at h
    · next m hm => exact .inr (.inr (.inl ⟨rfl, m, hm, (goto_eq_next.1 h).symm⟩))
    · cases h
  · exact .inr (.inr (.inr (.inl ⟨rfl, h⟩)))
  · exact .inr (.inr (.inr (.inr h)))

/-- What one step of RSVE can do (R94). -/
theorem rsveStep_next {ret : Response → State → Out} {l : Label} {s t : State} (h : rsveStep ret l s = .next t) :
    (l = .V1 ∧
        t = (s.setP { s.p with ppos := s.pseq.cursor, n := narrow (reserveLen s s.pseq.cursor) }).goto .G1) ∨
      (l = .V3 ∧ ret ⟨.ok, s.p.n, s.p.ppos, []⟩ (s.setRsv ⟨true, s.p.ppos, s.p.n⟩) = .next t) ∨
      gateStep .V3 (ret ⟨.eos, 0, 0, []⟩) l s = .next t := by
  unfold rsveStep at h
  split at h
  · exact .inl ⟨rfl, (goto_eq_next.1 h).symm⟩
  · exact .inr (.inl ⟨rfl, h⟩)
  · exact .inr (.inr h)

/-- What one step of PUBL can do (R95). -/
theorem publStep_next {ret : Response → State → Out} {l : Label} {s t : State} (h : publStep ret l s = .next t) :
    (l = .U1 ∧ overflows s (s.rsv.pos.toInt + s.p.n.toInt) = false ∧ ∃ m,
        memWrite s.buf s.sizeNat (s.idx s.rsv.pos) s.p.data = .ok m ∧ t = (s.setBuf m).goto .U2) ∨
      (l = .U2 ∧
        ret ⟨.ok, s.p.n, 0, []⟩
          ((s.storePseq (narrow (s.rsv.pos.toInt + s.p.n.toInt))).setRsv { s.rsv with valid := false }) =
            .next t) := by
  unfold publStep at h
  split at h
  · split at h
    · cases h
    next ho =>
    split at h
    · next m hm => exact .inl ⟨rfl, by simpa using ho, m, hm, (goto_eq_next.1 h).symm⟩
    · cases h
  · exact .inr ⟨rfl, h⟩
  · cases h

/-- What one step of the agent of a port can do (10_state.md R33; 30_encoding.md R71, R86). -/
theorem stepPort_next {a : Port} {s t : State} (h : stepPort a s = .next t) :
    (∃ i l, (s.port a).phase = .run i l ∧ exec i s = .next t) ∨
      ((s.port a).phase = .idle ∧ (s.port a).script = [] ∧ t = s) ∨
      ((s.port a).phase = .idle ∧ ∃ pr rest, (s.port a).script = pr :: rest ∧
        ((∃ i, decode pr.cmd = .instr i ∧ exec i (present pr rest a s) = .next t) ∨
          ((∃ r, decode pr.cmd = .illegal r) ∧ t = (present pr rest a s).respond ⟨.illegal, 0, 0, []⟩))) := by
  unfold stepPort at h
  split at h
  · next i l hp => exact .inl ⟨i, l, hp, h⟩
  · next hp =>
    split at h
    · next hs => cases h; exact .inr (.inl ⟨hp, hs, rfl⟩)
    · next pr rest hs =>
      refine .inr (.inr ⟨hp, pr, rest, hs, ?_⟩)
      split at h
      · next i hd => exact .inl ⟨i, hd, h⟩
      · next r hd => exact .inr ⟨⟨r, hd⟩, (respond_eq_next.1 h).symm⟩

/-- What one step of the machine can do (R14, R89). -/
theorem step_next {s t : State} (h : step s = .next t) :
    (s.env.sched = [] ∧ t = s) ∨
      (∃ a lag rest, s.env.sched = .run a lag :: rest ∧ stepPort a (s.atTurn a lag rest) = .next t) ∨
      ∃ z id rest, s.env.sched = .rst z id :: rest ∧
        t = resetWith z id { s with env := { s.env with sched := rest } } := by
  unfold step at h
  split at h
  · next hs => cases h; exact .inl ⟨hs, rfl⟩
  · next a lag rest hs => exact .inr (.inl ⟨a, lag, rest, hs, h⟩)
  · next z id rest hs => cases h; exact .inr (.inr ⟨z, id, rest, hs, rfl⟩)

/-! ### The configuration a command keeps -/

/-- What only a reset writes: the configuration registers, the parameters and the dead words of both lines (00_scope.md
R6; 10_state.md R15, R27, R29, R31; 70_reset_and_hazards.md R149). -/
structure Configuration where
  size : Word
  mask : Word
  ident : Word
  cfgState : CfgState
  cfgErr : Status
  hint : Word
  params : Params
  pPad : List Word
  cGate : Word
  cPad : List Word

/-- The configuration a state is in. -/
def State.configuration (s : State) : Configuration where
  size := s.size
  mask := s.mask
  ident := s.ident
  cfgState := s.cfgState
  cfgErr := s.cfgErr
  hint := s.hint
  params := s.params
  pPad := s.pseq.pad
  cGate := s.cseq.gate
  cPad := s.cseq.pad

section
variable (s : State)

@[simp] theorem storePseq_configuration (v : Word) : (s.storePseq v).configuration = s.configuration := rfl
@[simp] theorem setGate_configuration (v : Word) : (s.setGate v).configuration = s.configuration := rfl
@[simp] theorem storeCseq_configuration (v : Word) : (s.storeCseq v).configuration = s.configuration := rfl
@[simp] theorem setDone_configuration : s.setDone.configuration = s.configuration := rfl
@[simp] theorem bumpCwait_configuration : s.bumpCwait.configuration = s.configuration := rfl
@[simp] theorem setRsv_configuration (r : Reservation) : (s.setRsv r).configuration = s.configuration := rfl
@[simp] theorem setBuf_configuration (m : Memory) : (s.setBuf m).configuration = s.configuration := rfl
@[simp] theorem setTmp_configuration (m : Memory) : (s.setTmp m).configuration = s.configuration := rfl
@[simp] theorem setP_configuration (x : PLatches) : (s.setP x).configuration = s.configuration := rfl
@[simp] theorem setC_configuration (x : CLatches) : (s.setC x).configuration = s.configuration := rfl
@[simp] theorem setEnv_configuration (e : Env) : (s.setEnv e).configuration = s.configuration := rfl

@[simp] theorem setPort_configuration (a : Port) (x : PortState) :
    (s.setPort a x).configuration = s.configuration := by
  cases a <;> rfl

@[simp] theorem goto_configuration (l : Label) : (s.goto l).configuration = s.configuration := by
  simp [State.goto]

@[simp] theorem respond_configuration (r : Response) : (s.respond r).configuration = s.configuration := by
  simp [State.respond]

@[simp] theorem noteSample_configuration : s.noteSample.configuration = s.configuration := by
  simp [State.noteSample]

@[simp] theorem raiseFloor_configuration : s.raiseFloor.configuration = s.configuration := by
  simp [State.raiseFloor]

@[simp] theorem present_configuration (pr : Presented) (rest : List Presented) (a : Port) :
    (present pr rest a s).configuration = s.configuration := by
  simp [present]

@[simp] theorem present_done (pr : Presented) (rest : List Presented) (a : Port) :
    (present pr rest a s).done = s.done := by
  simp [present]

@[simp] theorem latchOperands_configuration (i : Instr) : (latchOperands i s).configuration = s.configuration := by
  cases i <;> rfl

@[simp] theorem latchOperands_done (i : Instr) : (latchOperands i s).done = s.done := by
  cases i <;> rfl

@[simp] theorem accept_configuration (i : Instr) (l : Label) : (accept i l s).configuration = s.configuration := by
  simp [accept]

@[simp] theorem accept_done (i : Instr) (l : Label) : (accept i l s).done = s.done := by
  simp [accept]

@[simp] theorem addTotalP_configuration (k : Word) : (addTotalP k s).configuration = s.configuration := rfl
@[simp] theorem addTotalP_done (k : Word) : (addTotalP k s).done = s.done := rfl
@[simp] theorem addTotalC_configuration (k : Word) : (addTotalC k s).configuration = s.configuration := rfl
@[simp] theorem addTotalC_done (k : Word) : (addTotalC k s).done = s.done := rfl

@[simp] theorem atTurn_configuration (a : Port) (lag : Nat) (rest : List Turn) :
    (s.atTurn a lag rest).configuration = s.configuration := rfl

@[simp] theorem atTurn_done (a : Port) (lag : Nat) (rest : List Turn) : (s.atTurn a lag rest).done = s.done := rfl

end

/-- From `s` to `t` the configuration is kept and `DONE` is not cleared (R28, R31). -/
structure State.Kept (s t : State) : Prop where
  configuration : t.configuration = s.configuration
  done : s.done = true → t.done = true

theorem State.Kept.trans {s t u : State} (h : s.Kept t) (h' : t.Kept u) : s.Kept u :=
  ⟨h'.configuration.trans h.configuration, h'.done ∘ h.done⟩

/-- Every next state that `f` answers with keeps the configuration. -/
def KeepsConfiguration (f : State → Out) : Prop := ∀ ⦃s t : State⦄, f s = .next t → s.Kept t

theorem goto_keepsConfiguration (l : Label) : KeepsConfiguration (goto l) := by
  intro s t h
  obtain rfl := goto_eq_next.1 h
  exact ⟨by simp, by simp⟩

theorem respond_keepsConfiguration (r : Response) : KeepsConfiguration (respond r) := by
  intro s t h
  obtain rfl := respond_eq_next.1 h
  exact ⟨by simp, by simp⟩

theorem KeepsConfiguration.after {f : State → Out} (hf : KeepsConfiguration f) {s s' t : State} (h : f s' = .next t)
    (hs : s.Kept s') : s.Kept t :=
  hs.trans (hf h)

theorem command_keepsConfiguration {i : Instr} {first : Label} {body : Label → State → Out}
    (hb : ∀ l, KeepsConfiguration (body l)) : KeepsConfiguration (command i first body) := by
  intro s t h
  rcases command_next h with ⟨-, -, -, h⟩ | ⟨-, -, rfl⟩ | ⟨l, -, -, h⟩
  · exact (hb first).after h ⟨by simp, by simp⟩
  · exact ⟨by simp, by simp⟩
  · exact hb l h

/-! #### The primitive commands -/

theorem lenStep_keepsConfiguration (l : Label) : KeepsConfiguration (lenStep l) := by
  intro s t h
  rcases lenStep_next h with ⟨-, -, rfl⟩ | ⟨-, -, rfl⟩ | ⟨-, -, rfl⟩ | ⟨-, -, rfl⟩
  all_goals exact ⟨by simp, by simp⟩

theorem identStep_keepsConfiguration (l : Label) : KeepsConfiguration (identStep l) := by
  intro s t h
  obtain ⟨-, rfl⟩ := identStep_next h
  exact ⟨by simp, by simp⟩

theorem closeStep_keepsConfiguration (l : Label) : KeepsConfiguration (closeStep l) := by
  intro s t h
  obtain ⟨-, rfl⟩ := closeStep_next h
  exact ⟨by simp, by simp⟩

theorem gateStep_keepsConfiguration {onEos : State → Out} (he : KeepsConfiguration onEos) (after l : Label) :
    KeepsConfiguration (gateStep after onEos l) := by
  intro s t h
  rcases gateStep_next h with
    ⟨-, -, -, rfl, rfl⟩ | ⟨-, -, rfl⟩ | ⟨-, -, rfl⟩ | ⟨-, -, h⟩ | ⟨-, -, rfl⟩ | ⟨-, rfl⟩
  case inr.inr.inr.inl => exact he h
  all_goals exact ⟨by simp, by simp⟩

theorem cwaitStep_keepsConfiguration {onEos : State → Out} (he : KeepsConfiguration onEos) (after l : Label) :
    KeepsConfiguration (cwaitStep after onEos l) := by
  intro s t h
  rcases cwaitStep_next h with ⟨-, rfl⟩ | ⟨-, rfl⟩ | ⟨-, -, h⟩ | ⟨-, -, rfl⟩ | ⟨-, rfl⟩
  case inr.inr.inl => exact he.after h ⟨by simp, by simp⟩
  all_goals exact ⟨by simp, by simp⟩

section
variable {ret : Response → State → Out} (hr : ∀ r, KeepsConfiguration (ret r)) (l : Label)
include hr

theorem readStep_keepsConfiguration : KeepsConfiguration (readStep ret l) := by
  intro s t h
  rcases readStep_next h with ⟨-, -, h⟩ | ⟨-, -, rfl⟩ | ⟨-, m, out, -, -, rfl⟩ | ⟨-, h⟩ | h
  · exact hr _ h
  · exact ⟨by simp, by simp⟩
  · exact ⟨by simp, by simp⟩
  · exact (hr _).after h ⟨by simp, by simp⟩
  · exact cwaitStep_keepsConfiguration (hr _) _ l h

theorem peekStep_keepsConfiguration : KeepsConfiguration (peekStep ret l) := by
  intro s t h
  rcases peekStep_next h with ⟨-, e, -, h⟩ | ⟨-, -, rfl⟩ | ⟨-, m, start, s', -, -, rfl, h⟩ | h
  · exact hr _ h
  · exact ⟨by simp, by simp⟩
  · rcases h with ⟨-, h⟩ | ⟨-, -, view, -, h⟩ | ⟨-, -, view, tmp, -, h⟩
    all_goals exact (hr _).after h ⟨by simp, by simp⟩
  · exact cwaitStep_keepsConfiguration (hr _) _ l h

theorem commitStep_keepsConfiguration : KeepsConfiguration (commitStep ret l) := by
  intro s t h
  rcases commitStep_next h with ⟨-, e, -, h⟩ | ⟨-, -, rfl⟩ | ⟨-, s', rfl, ⟨-, rfl⟩ | ⟨-, h⟩⟩ | ⟨-, h⟩
  · exact hr _ h
  · exact ⟨by simp, by simp⟩
  · exact ⟨by simp, by simp⟩
  · exact (hr _).after h ⟨by simp, by simp⟩
  · exact (hr _).after h ⟨by simp, by simp⟩

theorem writeStep_keepsConfiguration : KeepsConfiguration (writeStep ret l) := by
  intro s t h
  rcases writeStep_next h with ⟨-, e, -, h⟩ | ⟨-, -, rfl⟩ | ⟨-, m, -, rfl⟩ | ⟨-, h⟩ | h
  · exact hr _ h
  · exact ⟨by simp, by simp⟩
  · exact ⟨by simp, by simp⟩
  · exact (hr _).after h ⟨by simp, by simp⟩
  · exact gateStep_keepsConfiguration (hr _) _ l h

theorem rsveStep_keepsConfiguration : KeepsConfiguration (rsveStep ret l) := by
  intro s t h
  rcases rsveStep_next h with ⟨-, rfl⟩ | ⟨-, h⟩ | h
  · exact ⟨by simp, by simp⟩
  · exact (hr _).after h ⟨by simp, by simp⟩
  · exact gateStep_keepsConfiguration (hr _) _ l h

theorem publStep_keepsConfiguration : KeepsConfiguration (publStep ret l) := by
  intro s t h
  rcases publStep_next h with ⟨-, -, m, -, rfl⟩ | ⟨-, h⟩
  · exact ⟨by simp, by simp⟩
  · exact (hr _).after h ⟨by simp, by simp⟩

end

/-! #### The streaming commands -/

theorem srcRead_keepsConfiguration (max : Int) (l : Label) : KeepsConfiguration (srcRead max l) := by
  intro s t h
  rcases srcRead_next h with ⟨-, rfl⟩ | ⟨a, rest, -, -, rfl⟩
  · exact ⟨rfl, id⟩
  · exact ⟨by simp, by simp⟩

theorem sinkWrite_keepsConfiguration (l : Label) : KeepsConfiguration (sinkWrite l) := by
  intro s t h
  rcases sinkWrite_next h with ⟨-, rfl⟩ | ⟨a, rest, -, -, rfl⟩
  · exact ⟨rfl, id⟩
  · exact ⟨by simp, by simp⟩

theorem sourceEnd_keepsConfiguration (again : Label) : KeepsConfiguration (sourceEnd again) := by
  intro s t h
  unfold sourceEnd at h
  split at h
  · exact goto_keepsConfiguration _ h
  · exact respond_keepsConfiguration _ h
  · exact respond_keepsConfiguration _ h

theorem readFromAfterRsve_keepsConfiguration (r : Response) : KeepsConfiguration (readFromAfterRsve r) := by
  intro s t h
  unfold readFromAfterRsve at h
  split at h
  · exact respond_keepsConfiguration _ h
  · exact goto_keepsConfiguration _ h

theorem readFromAfterPubl_keepsConfiguration (r : Response) : KeepsConfiguration (readFromAfterPubl r) :=
  fun _ _ h => (goto_keepsConfiguration .F4).after h ⟨by simp, by simp⟩

theorem readFromBAfterWrite_keepsConfiguration (r : Response) : KeepsConfiguration (readFromBAfterWrite r) := by
  intro s t h
  unfold readFromBAfterWrite at h
  simp only at h
  split at h
  · exact (goto_keepsConfiguration _).after h ⟨by simp, by simp⟩
  · exact (respond_keepsConfiguration _).after h ⟨by simp, by simp⟩

theorem startPeek_keepsConfiguration : KeepsConfiguration startPeek :=
  fun _ _ h => (goto_keepsConfiguration .B1).after h ⟨by simp, by simp⟩

theorem startCommit_keepsConfiguration (k : Word) : KeepsConfiguration (startCommit k) :=
  fun _ _ h => (goto_keepsConfiguration .M1).after h ⟨by simp, by simp⟩

theorem writeToAfterPeek_keepsConfiguration (r : Response) : KeepsConfiguration (writeToAfterPeek r) := by
  intro s t h
  unfold writeToAfterPeek at h
  split at h
  · exact (goto_keepsConfiguration _).after h ⟨by simp, by simp⟩
  · exact respond_keepsConfiguration _ h

theorem writeToAfterSink_keepsConfiguration : KeepsConfiguration writeToAfterSink := by
  intro s t h
  unfold writeToAfterSink at h
  split at h
  · exact startCommit_keepsConfiguration _ h
  · simp only at h
    split at h
    · exact (startCommit_keepsConfiguration _).after h ⟨by simp, by simp⟩
    · exact (respond_keepsConfiguration _).after h ⟨by simp, by simp⟩

theorem writeToAfterCommit_keepsConfiguration (r : Response) : KeepsConfiguration (writeToAfterCommit r) := by
  intro s t h
  unfold writeToAfterCommit at h
  split at h
  · exact startPeek_keepsConfiguration.after h ⟨by simp, by simp⟩
  · exact respond_keepsConfiguration _ h

theorem readFromStep_keepsConfiguration (l : Label) : KeepsConfiguration (readFromStep l) := by
  intro s t h
  unfold readFromStep at h
  split at h
  · exact (goto_keepsConfiguration _).after h ⟨by simp, by simp⟩
  · exact srcRead_keepsConfiguration _ _ h
  · exact sourceEnd_keepsConfiguration _ h
  · exact (rsveStep_keepsConfiguration readFromAfterRsve_keepsConfiguration _).after h ⟨by simp, by simp⟩
  · exact (publStep_keepsConfiguration readFromAfterPubl_keepsConfiguration _).after h ⟨by simp, by simp⟩
  · exact publStep_keepsConfiguration readFromAfterPubl_keepsConfiguration _ h
  · exact rsveStep_keepsConfiguration readFromAfterRsve_keepsConfiguration _ h

theorem readFromBStep_keepsConfiguration (l : Label) : KeepsConfiguration (readFromBStep l) := by
  intro s t h
  unfold readFromBStep at h
  split at h
  · exact (goto_keepsConfiguration _).after h ⟨by simp, by simp⟩
  · exact srcRead_keepsConfiguration _ _ h
  · exact sourceEnd_keepsConfiguration _ h
  · exact (writeStep_keepsConfiguration readFromBAfterWrite_keepsConfiguration _).after h ⟨by simp, by simp⟩
  · exact writeStep_keepsConfiguration readFromBAfterWrite_keepsConfiguration _ h

theorem writeToStep_keepsConfiguration (l : Label) : KeepsConfiguration (writeToStep l) := by
  intro s t h
  unfold writeToStep at h
  split at h
  · exact startPeek_keepsConfiguration.after h ⟨by simp, by simp⟩
  · exact sinkWrite_keepsConfiguration _ h
  · exact writeToAfterSink_keepsConfiguration h
  · exact (peekStep_keepsConfiguration writeToAfterPeek_keepsConfiguration _).after h ⟨by simp, by simp⟩
  · exact (commitStep_keepsConfiguration writeToAfterCommit_keepsConfiguration _).after h ⟨by simp, by simp⟩
  · exact commitStep_keepsConfiguration writeToAfterCommit_keepsConfiguration _ h
  · exact commitStep_keepsConfiguration writeToAfterCommit_keepsConfiguration _ h
  · exact peekStep_keepsConfiguration writeToAfterPeek_keepsConfiguration _ h

/-! #### Every command, every port -/

/-- No command writes the configuration, and none clears `DONE` (R28, R31). -/
theorem exec_keepsConfiguration (i : Instr) : KeepsConfiguration (exec i) := by
  cases i with
  | write n => exact command_keepsConfiguration (writeStep_keepsConfiguration respond_keepsConfiguration)
  | rsve => exact command_keepsConfiguration (rsveStep_keepsConfiguration respond_keepsConfiguration)
  | publ k => exact command_keepsConfiguration (publStep_keepsConfiguration respond_keepsConfiguration)
  | read cap => exact command_keepsConfiguration (readStep_keepsConfiguration respond_keepsConfiguration)
  | peek n => exact command_keepsConfiguration (peekStep_keepsConfiguration respond_keepsConfiguration)
  | commit n => exact command_keepsConfiguration (commitStep_keepsConfiguration respond_keepsConfiguration)
  | readFrom => exact command_keepsConfiguration readFromStep_keepsConfiguration
  | readFromB => exact command_keepsConfiguration readFromBStep_keepsConfiguration
  | writeTo => exact command_keepsConfiguration writeToStep_keepsConfiguration
  | close => exact command_keepsConfiguration closeStep_keepsConfiguration
  | len => exact command_keepsConfiguration lenStep_keepsConfiguration
  | ident => exact command_keepsConfiguration identStep_keepsConfiguration

theorem stepPort_keepsConfiguration (a : Port) : KeepsConfiguration (stepPort a) := by
  intro s t h
  rcases stepPort_next h with
    ⟨i, l, -, h⟩ | ⟨-, -, rfl⟩ | ⟨-, pr, rest, -, ⟨i, -, h⟩ | ⟨-, rfl⟩⟩
  · exact exec_keepsConfiguration i h
  · exact ⟨rfl, id⟩
  · exact (exec_keepsConfiguration i).after h ⟨by simp, by simp⟩
  · exact ⟨by simp, by simp⟩

/-! ### The sequence lines -/

/-- A line after reset has the dead words that fill `LINE_BYTES` (10_state.md R20). -/
theorem SeqLine.reset_pad_length (q : Params) : (SeqLine.reset q).pad.length = q.padWords := by
  simp [SeqLine.reset]

/-- A reset that succeeds lays both lines out anew; one that fails leaves no configured block. -/
theorem resetWith_lineInv (cfgSize cfgId : Word) (s : State) : (resetWith cfgSize cfgId s).LineInv := by
  unfold resetWith
  split
  · exact fun _ => ⟨SeqLine.reset_pad_length _, SeqLine.reset_pad_length _⟩
  · exact nofun

/-- Whether the lines are filled depends on the configuration alone. -/
theorem State.Kept.lineInv {s t : State} (h : s.Kept t) (hs : s.LineInv) : t.LineInv := by
  have hc := h.configuration
  simp only [State.configuration, Configuration.mk.injEq] at hc
  obtain ⟨-, -, -, hcfg, -, -, hparams, hpPad, -, hcPad⟩ := hc
  simpa only [State.LineInv, hcfg, hparams, hpPad, hcPad] using hs

theorem step_keeps_lineInv {s t : State} (hs : s.LineInv) (h : step s = .next t) : t.LineInv := by
  rcases step_next h with ⟨-, rfl⟩ | ⟨a, lag, rest, -, h⟩ | ⟨z, id, rest, -, rfl⟩
  · exact hs
  · have hkept : s.Kept t := (stepPort_keepsConfiguration a).after h ⟨by simp, by simp⟩
    exact hkept.lineInv hs
  · exact resetWith_lineInv z id _

theorem wordBytes_length (w : Word) : (wordBytes w).length = 8 := by
  simp [wordBytes]

/-- A line is its two live words and its dead words, 8 bytes each (R20 to R22). -/
theorem SeqLine.bytes_length (l : SeqLine) : l.bytes.length = 8 * (2 + l.pad.length) := by
  simp only [SeqLine.bytes, SeqLine.words, List.length_flatMap, wordBytes_length, List.map_const',
    List.sum_replicate, List.length_cons, smul_eq_mul]
  omega

/-- The dead words fill a `LINE_BYTES` of whole words that holds the cursor and the gate slot (R20). -/
theorem Params.words_fill_line {q : Params} (h16 : 16 ≤ q.lineBytes) (h8 : q.lineBytes % 8 = 0) :
    8 * (2 + q.padWords) = q.lineBytes := by
  unfold Params.padWords
  omega

/-- Adjacent lines meet R23. -/
theorem placed_adjacent (q : Params) (a : Nat) : placed q a (a + q.lineBytes) = true := by
  simp [placed]

/-- Two addresses at least a block apart are in different aligned blocks. -/
theorem div_ne_of_add_le {a b size : Nat} (hsize : 1 ≤ size) (h : a + size ≤ b) : a / size ≠ b / size := by
  have hle : (a + size) / size ≤ b / size := Nat.div_le_div_right h
  rw [Nat.add_div_right a hsize] at hle
  omega

/-- Cursors placed as R23 asks are in no common aligned block of up to `LINE_BYTES`, whichever comes first. -/
theorem placed_separates {q : Params} {a b size : Nat} (h : placed q a b = true) (hsize : 1 ≤ size)
    (hle : size ≤ q.lineBytes) : a / size ≠ b / size := by
  simp only [placed, Bool.or_eq_true, decide_eq_true_eq] at h
  rcases h with h | h
  · exact div_ne_of_add_le hsize (by omega)
  · exact (div_ne_of_add_le hsize (by omega)).symm

/-- Settles O59: a reset lays the lines out and no command touches their dead words (`stepPort_keepsConfiguration`); the
rest is the length of a line and the arithmetic of R23's distance. -/
theorem sequenceLinesFillTheirBytes : Obligations.SequenceLinesFillTheirBytes := by
  unfold Obligations.SequenceLinesFillTheirBytes
  refine ⟨fun s z id => resetWith_lineInv z id s, fun s t => step_keeps_lineInv, fun q l hpad h16 h8 => ?_,
    placed_adjacent, fun q a b size => placed_separates⟩
  rw [SeqLine.bytes_length, hpad, Params.words_fill_line h16 h8]

end Sys2Proof.Machine
end

section
/-! PROOFS, family 10_state.md. The invariant every step keeps, and the frames of the commands. -/

namespace Sys2Proof.Machine

/-! ### The invariant as a step of one agent meets it -/

/-- The parts of the invariant that speak of no phase and of no latch. -/
structure State.SharedInv (s : State) : Prop where
  params : s.params.ok = true
  size : s.SizeInv
  ring : s.RingInv
  gate : s.GateInv
  rsv : s.RsvInv
  spaces : s.SpaceInv
  window : s.WindowInv
  floors : s.FloorInv

/-- An agent's phase is one it can be in, and what holds there holds (10_state.md R33). -/
def State.PhaseInv (s : State) : Port → Prop
  | .P => s.PPhaseInv
  | .C => s.CPhaseInv

/-- What holds when an agent's phase is `(i, l)`. -/
def State.LabelInv (s : State) (i : Instr) (l : Label) : Port → Prop
  | .P => s.PLabelInv i l
  | .C => s.CLabelInv i l

/-- `t` meets the invariant and neither cursor is lower than in `s`. -/
structure State.Advances (s t : State) : Prop where
  ready : t.ReadyInv
  pseq : s.pseq.cursor.toInt ≤ t.pseq.cursor.toInt
  cseq : s.cseq.cursor.toInt ≤ t.cseq.cursor.toInt

/-- `u` is a state inside a step from `s` of the agent of port `a`, which is executing `i`: the invariant holds but for
what the agent's own phase says, and neither cursor is lower than in `s`. -/
structure State.Running (s : State) (a : Port) (i : Instr) (u : State) : Prop where
  turn : u.turn = a
  phase : ∃ l, (u.port a).phase = .run i l
  accepted : accepts a i = true
  shared : u.SharedInv
  other : u.PhaseInv (otherPort a)
  pseq : s.pseq.cursor.toInt ≤ u.pseq.cursor.toInt
  cseq : s.cseq.cursor.toInt ≤ u.cseq.cursor.toInt

theorem State.ReadyInv.shared {s : State} (h : s.ReadyInv) (hq : s.params.ok = true) : s.SharedInv :=
  { h with params := hq }

theorem State.ReadyInv.phaseInv {s : State} (h : s.ReadyInv) : ∀ a, s.PhaseInv a
  | .P => h.pPhase
  | .C => h.cPhase

/-- The bound of an agent's samples lies between 0 and the cursor it samples (20_memory.md R59). -/
theorem FloorInv.bounds {s : State} (h : s.FloorInv) (a : Port) :
    0 ≤ (s.port a).floor.toInt ∧ (s.port a).floor.toInt ≤ (s.otherCursor a).toInt := by
  obtain ⟨hp, hpc, hc, hcp⟩ := h
  cases a with
  | P => exact ⟨hp, hpc⟩
  | C => exact ⟨hc, hcp⟩

/-- A sample lies between the bound and the current value (R59). -/
theorem sample_bounds {s : State} (h : s.FloorInv) :
    (s.port s.turn).floor.toInt ≤ s.sample.toInt ∧ s.sample.toInt ≤ (s.otherCursor s.turn).toInt := by
  obtain ⟨-, hle⟩ := FloorInv.bounds h s.turn
  unfold State.sample observe
  cases s.params.sampleLag with
  | none => exact ⟨hle, le_rfl⟩
  | lagging =>
    have hf := minInt64_le_toInt (s.port s.turn).floor
    have ho := toInt_le_maxInt64 (s.otherCursor s.turn)
    simp only
    rw [toInt_narrow _ (by omega) (by omega)]
    omega

/-! ### What the named updates do inside a step -/

section
variable {s u : State} {i : Instr} {a : Port}

/-- A step that stops in the command leaves the agent at the label it names. -/
theorem State.Running.goto (h : s.Running a i u) {l : Label} (hl : u.LabelInv i l a) : s.Advances (u.goto l) := by
  obtain ⟨rfl, ⟨l', hp⟩, ha, hs, ho, hpseq, hcseq⟩ := h
  have hport : u.goto l = u.setPort u.turn { u.port u.turn with phase := .run i l } := by
    rw [State.goto, hp, Phase.withLabel]
  rw [hport]
  generalize u.turn = a at *
  cases a with
  | P => exact ⟨{ hs with pPhase := ⟨ha, hl⟩, cPhase := ho }, hpseq, hcseq⟩
  | C => exact ⟨{ hs with pPhase := ho, cPhase := ⟨ha, hl⟩ }, hpseq, hcseq⟩

/-- A response leaves the agent IDLE. -/
theorem State.SharedInv.respond (hs : u.SharedInv) (ho : u.PhaseInv (otherPort u.turn)) (r : Response) :
    (u.respond r).ReadyInv := by
  rw [State.respond]
  generalize u.turn = a at *
  cases a with
  | P => exact { hs with pPhase := trivial, cPhase := ho }
  | C => exact { hs with pPhase := ho, cPhase := trivial }

theorem State.Running.respond (h : s.Running a i u) (r : Response) : s.Advances (u.respond r) := by
  obtain ⟨rfl, -, -, hs, ho, hpseq, hcseq⟩ := h
  exact ⟨hs.respond ho r, by simpa using hpseq, by simpa using hcseq⟩

/-- The agent's bound may move within the bounds of R59. -/
theorem State.Running.setFloor (h : s.Running a i u) (f : Word) (h0 : 0 ≤ f.toInt)
    (hle : f.toInt ≤ (u.otherCursor a).toInt) : s.Running a i (u.setPort a { u.port a with floor := f }) := by
  obtain ⟨ht, hp, ha, hs, ho, hpseq, hcseq⟩ := h
  obtain ⟨hfp, hfpc, hfc, hfcp⟩ := hs.floors
  cases a with
  | P => exact ⟨ht, hp, ha, { hs with floors := ⟨h0, hle, hfc, hfcp⟩ }, ho, hpseq, hcseq⟩
  | C => exact ⟨ht, hp, ha, { hs with floors := ⟨hfp, hfpc, h0, hle⟩ }, ho, hpseq, hcseq⟩

theorem State.Running.noteSample (h : s.Running a i u) : s.Running a i u.noteSample := by
  obtain ⟨h0, -⟩ := FloorInv.bounds h.shared.floors u.turn
  obtain ⟨h1, h2⟩ := sample_bounds h.shared.floors
  rw [h.turn] at h2
  rw [State.noteSample, h.turn]
  exact h.setFloor _ (by omega) h2

theorem State.Running.raiseFloor (h : s.Running a i u) : s.Running a i u.raiseFloor := by
  obtain ⟨h0, hle⟩ := FloorInv.bounds h.shared.floors u.turn
  have hmax := acceptedPort_floor u
  rw [State.acceptedPort] at hmax
  rw [State.raiseFloor, State.acceptedPort]
  rw [h.turn] at *
  exact h.setFloor _ (by simp only at hmax; omega) (by simp only at hmax; omega)

theorem State.Running.setP (h : s.Running .P i u) (x : PLatches) : s.Running .P i (u.setP x) :=
  { h with shared := { h.shared with }, other := h.other }

theorem State.Running.setC (h : s.Running .C i u) (x : CLatches) : s.Running .C i (u.setC x) :=
  { h with shared := { h.shared with }, other := h.other }

theorem State.Running.setEnv (h : s.Running a i u) (e : Env) : s.Running a i (u.setEnv e) := by
  cases a with
  | P => exact { h with shared := { h.shared with }, other := h.other }
  | C => exact { h with shared := { h.shared with }, other := h.other }

theorem State.Running.setDone (h : s.Running a i u) : s.Running a i u.setDone := by
  cases a with
  | P => exact { h with shared := { h.shared with }, other := h.other }
  | C => exact { h with shared := { h.shared with }, other := h.other }

theorem State.Running.bumpCwait (h : s.Running a i u) : s.Running a i u.bumpCwait := by
  cases a with
  | P => exact { h with shared := { h.shared with }, other := h.other }
  | C => exact { h with shared := { h.shared with }, other := h.other }

theorem State.Running.setTmp (h : s.Running a i u) {m : Memory} (hw : m.wf) (hb : ∀ x ∈ m, x.1 < u.sizeNat) :
    s.Running a i (u.setTmp m) := by
  obtain ⟨hbuf, -, hbufB, -⟩ := h.shared.spaces
  have hs : (u.setTmp m).SharedInv := { h.shared with spaces := ⟨hbuf, hw, hbufB, hb⟩ }
  cases a with
  | P => exact { h with shared := hs, other := h.other }
  | C => exact { h with shared := hs, other := h.other }

/-- A reservation may be recorded, or ended, when `RsvInv` allows it (10_state.md R32). -/
theorem State.Running.setRsv (h : s.Running .P i u) {r : Reservation} (hr : (u.setRsv r).RsvInv) :
    s.Running .P i (u.setRsv r) :=
  { h with shared := { h.shared with rsv := hr }, other := h.other }

/-- The gate may take a value within the bounds of R37. -/
theorem State.Running.setGate (h : s.Running .P i u) {v : Word} (hv : u.rsv.valid = false) (h0 : 0 ≤ v.toInt)
    (hc : v.toInt ≤ u.cseq.cursor.toInt) (hp : u.pseq.cursor.toInt - u.size.toInt ≤ v.toInt) :
    s.Running .P i (u.setGate v) :=
  { h with
    shared := { h.shared with gate := ⟨h0, hc, hp⟩, rsv := fun h' => absurd (hv.symm.trans h') nofun }
    other := h.other }

/-! #### What the consumer sees of a producer's step -/

/-- Bytes that lie between the cursors are there after a step that keeps those bytes. -/
theorem State.Holds.of_unread {s t : State} {pos : Int} {v : List Byte} (h : s.Holds pos v)
    (hat : ∀ q, pos ≤ q → q < pos + v.length → t.at q = s.at q) : t.Holds pos v := by
  intro j hj
  rw [hat _ (by omega) (by omega), h j hj]

/-- What agent C relies on is the same in `t` as in `u`, but that the producer cursor may be higher. -/
structure State.ConsumerViewKept (u t : State) : Prop where
  cseq : t.cseq = u.cseq
  c : t.c = u.c
  cPort : t.cPort = u.cPort
  size : t.size = u.size
  params : t.params = u.params
  pseq : u.pseq.cursor.toInt ≤ t.pseq.cursor.toInt
  bytes : ∀ q, u.cseq.cursor.toInt ≤ q → q < u.pseq.cursor.toInt → t.at q = u.at q

theorem State.ConsumerViewKept.viewHeld {t : State} (k : u.ConsumerViewKept t) (h : u.ViewHeld) : t.ViewHeld := by
  obtain ⟨hlen, h1, hle, hh⟩ := h
  have hp := k.pseq
  simp only [State.ViewHeld, k.c, k.cseq]
  exact ⟨hlen, h1, by omega, hh.of_unread fun q hq1 hq2 => k.bytes q hq1 (by omega)⟩

theorem State.ConsumerViewKept.waitOperands {t : State} (k : u.ConsumerViewKept t) {j : Instr}
    (h : u.WaitOperands j) : t.WaitOperands j := by
  simpa only [State.WaitOperands, k.c, k.size, k.params] using h

theorem State.ConsumerViewKept.dataSampled {t : State} (k : u.ConsumerViewKept t) (h : u.DataSampled) :
    t.DataSampled := by
  obtain ⟨hpos, hlt, hle⟩ := h
  simp only [State.DataSampled, k.c, k.cseq]
  exact ⟨hpos, hlt, hle.trans k.pseq⟩

theorem State.ConsumerViewKept.dataHeld {t : State} (k : u.ConsumerViewKept t) (h : u.DataHeld) : t.DataHeld :=
  ⟨k.dataSampled h.1, by rw [k.c]; exact h.2⟩

/-- The consumer's labels keep their meaning when the producer moves its cursor up and keeps every unread byte. -/
theorem State.ConsumerViewKept.cLabelInv {t : State} (k : u.ConsumerViewKept t) {j : Instr} {l : Label}
    (h : u.CLabelInv j l) : t.CLabelInv j l := by
  have hp := k.pseq
  cases l with
  | K1 => exact k.waitOperands h
  | K2 | K3 =>
    obtain ⟨hw, hpos⟩ := h
    exact ⟨k.waitOperands hw, by rw [k.c, k.cseq, hpos]⟩
  | K4 => exact ⟨k.waitOperands h.1, k.dataSampled h.2⟩
  | A3 =>
    obtain ⟨hj, hn, hd⟩ := h
    exact ⟨hj, by rw [k.c]; exact hn, k.dataHeld hd⟩
  | B3 =>
    obtain ⟨hw, hj, hd⟩ := h
    exact ⟨k.waitOperands hw, hj, k.dataHeld hd⟩
  | A4 =>
    obtain ⟨hj, hpos, hm, hle, hlen, hh⟩ := h
    simp only [State.CLabelInv, k.c, k.cseq]
    refine ⟨hj, hpos, hm, by omega, hlen, hh.of_unread fun q hq1 hq2 => k.bytes q ?_ (by omega)⟩
    rw [← hpos]; exact hq1
  | B1 => simpa only [State.CLabelInv, k.c, k.params] using h
  | T2 => exact ⟨h.1, k.viewHeld h.2⟩
  | T3 =>
    obtain ⟨hj, hv, hk⟩ := h
    exact ⟨hj, k.viewHeld hv, by rw [k.c]; exact hk⟩
  | M1 =>
    obtain ⟨hj, hn, hle⟩ := h
    simp only [State.CLabelInv, k.c, k.cseq]
    exact ⟨hj, hn, by omega⟩
  | M2 => simpa only [State.CLabelInv, k.c, k.cseq, k.cPort] using h
  | M3 =>
    obtain ⟨hj, hpos, hn, hle⟩ := h
    simp only [State.CLabelInv, k.c, k.cseq]
    exact ⟨hj, hpos, hn, by omega⟩
  | L2 => simpa only [State.CLabelInv, k.c, k.cseq] using h
  | _ => exact h

theorem State.ConsumerViewKept.cPhaseInv {t : State} (k : u.ConsumerViewKept t) (h : u.CPhaseInv) : t.CPhaseInv := by
  unfold State.CPhaseInv at *
  rw [k.cPort]
  split
  · trivial
  · next j l hp =>
    rw [hp] at h
    exact ⟨h.1, k.cLabelInv h.2⟩

/-- `BUF` may change where no unread byte lies (20_memory.md R58). -/
theorem State.Running.setBuf (h : s.Running .P i u) {m : Memory} (hw : m.wf) (hb : ∀ x ∈ m, x.1 < u.sizeNat)
    (hat : ∀ q, u.cseq.cursor.toInt ≤ q → q < u.pseq.cursor.toInt → (u.setBuf m).at q = u.at q) :
    s.Running .P i (u.setBuf m) := by
  obtain ⟨-, htmp, -, htmpB⟩ := h.shared.spaces
  have hwin : (u.setBuf m).WindowInv := fun q h1 h2 => by
    rw [hat q h1 h2]
    exact h.shared.window q h1 h2
  have hk : u.ConsumerViewKept (u.setBuf m) := ⟨rfl, rfl, rfl, rfl, rfl, le_rfl, hat⟩
  exact { h with
    shared := { h.shared with spaces := ⟨hw, htmp, hb, htmpB⟩, window := hwin }
    other := hk.cPhaseInv h.other }

/-- The producer cursor may move over free positions that hold bytes, while no reservation stands
(40_producer_commands.md R92 W4, R95 U2). -/
theorem State.Running.storePseq (h : s.Running .P i u) {v : Word} (hr : u.rsv.valid = false)
    (hle : u.pseq.cursor.toInt ≤ v.toInt) (hg : v.toInt - u.size.toInt ≤ u.pseq.gate.toInt)
    (hmax : v.toInt + u.size.toInt ≤ maxInt64)
    (hat : ∀ q, u.pseq.cursor.toInt ≤ q → q < v.toInt → (u.at q).isSome = true) :
    s.Running .P i (u.storePseq v) := by
  obtain ⟨h0, hcp, -, -⟩ := h.shared.ring
  obtain ⟨hg0, hgc, -⟩ := h.shared.gate
  obtain ⟨hfp, hfpc, hfc, hfcp⟩ := h.shared.floors
  have hwin : (u.storePseq v).WindowInv := fun q h1 h2 => by
    by_cases hq : q < u.pseq.cursor.toInt
    · exact h.shared.window q h1 hq
    · exact hat q (by omega) h2
  have hk : u.ConsumerViewKept (u.storePseq v) := ⟨rfl, rfl, rfl, rfl, rfl, hle, fun _ _ _ => rfl⟩
  exact { h with
    shared :=
      { h.shared with
        ring := ⟨h0, hcp.trans hle, by simp only [storePseq_pseq, storePseq_cseq, storePseq_size]; omega, hmax⟩
        gate := ⟨hg0, hgc, hg⟩
        rsv := fun h' => absurd (hr.symm.trans h') nofun
        window := hwin
        floors := ⟨hfp, hfpc, hfc, hfcp.trans hle⟩ }
    other := hk.cPhaseInv h.other
    pseq := h.pseq.trans hle }

/-- The consumer cursor may move up to the producer's (41_consumer_commands.md R108 A4, R112 M3). -/
theorem State.Running.storeCseq (h : s.Running .C i u) {v : Word} (hle : u.cseq.cursor.toInt ≤ v.toInt)
    (hp : v.toInt ≤ u.pseq.cursor.toInt) : s.Running .C i (u.storeCseq v) := by
  obtain ⟨h0, -, hps, hmax⟩ := h.shared.ring
  obtain ⟨hg0, hgc, hgp⟩ := h.shared.gate
  obtain ⟨hfp, hfpc, hfc, hfcp⟩ := h.shared.floors
  exact { h with
    shared :=
      { h.shared with
        ring := ⟨h0.trans hle, hp, by simp only [storeCseq_pseq, storeCseq_cseq, storeCseq_size]; omega, hmax⟩
        gate := ⟨hg0, hgc.trans hle, hgp⟩
        window := fun q h1 h2 => h.shared.window q (hle.trans h1) h2
        floors := ⟨hfp, hfpc.trans hle, hfc, hfcp⟩ }
    other := h.other
    cseq := h.cseq.trans hle }

/-- Latching operands touches only the latches of the agent that accepts the command. -/
theorem State.Running.latchOperands (h : s.Running a i u) : s.Running a i (latchOperands i u) := by
  have ha := h.accepted
  cases i with
  | write _ | publ _ =>
    obtain rfl : a = .P := by simpa [accepts] using ha
    exact h.setP _
  | read _ | peek _ | commit _ =>
    obtain rfl : a = .C := by simpa [accepts] using ha
    exact h.setC _
  | _ => exact h

/-- Acceptance starts a step. -/
theorem State.ReadyInv.accept (h : s.ReadyInv) (hq : s.params.ok = true) (ha : accepts s.turn i = true) (l : Label) :
    s.Running s.turn i (accept i l s) := by
  obtain ⟨hfp, hfpc, hfc, hfcp⟩ := h.floors
  have hf := acceptedPort_floor s
  have hs := h.shared hq
  refine State.Running.latchOperands ⟨by simp, ⟨l, by simp⟩, ha, ?_, ?_, by simp, by simp⟩
  · generalize hx : { s.acceptedPort with phase := Phase.run i l } = x
    have hxf : x.floor = s.acceptedPort.floor := by rw [← hx]
    rw [← hxf] at hf
    generalize s.turn = a at *
    cases a with
    | P =>
      have hx0 : 0 ≤ x.floor.toInt := by simp at hf; omega
      have hxc : x.floor.toInt ≤ s.cseq.cursor.toInt := by simp [State.otherCursor] at hf; omega
      exact { hs with floors := ⟨hx0, hxc, hfc, hfcp⟩ }
    | C =>
      have hx0 : 0 ≤ x.floor.toInt := by simp at hf; omega
      have hxp : x.floor.toInt ≤ s.pseq.cursor.toInt := by simp [State.otherCursor] at hf; omega
      exact { hs with floors := ⟨hfp, hfpc, hx0, hxp⟩ }
  · generalize s.acceptedPort = x
    generalize s.turn = a
    cases a with
    | P => exact h.cPhase
    | C => exact h.pPhase

end

/-! ### What a sound state answers -/

/-- Why the spec lets a step of command `i` in state `s` be refused: an ill-formed pair (30_encoding.md R77), the
counter horizon (20_memory.md R69), a source or sink that breaks its contract (42_macro_commands.md R116, R117). -/
def State.MayRefuse (s : State) (i : Instr) : Refusal → Prop
  | .illFormedPair => s.phase = .idle ∧ i.payloadFits s.size (s.port s.turn).payload = false
  | .cursorOverflow => ¬ s.FarFromHorizon
  | .sourceBroken => ¬ s.ContractsKept
  | .sinkBroken => ¬ s.ContractsKept
  | .portBusy => False
  | .notModelled _ => False

/-- A step of command `i` from `s` may answer `o`: a next state that keeps the invariant and lowers no cursor, or a
refusal the spec gives, and never a fault. -/
def State.Sound (s : State) (i : Instr) : Out → Prop
  | .next t => s.Advances t
  | .fault _ => False
  | .refused r => s.MayRefuse i r

section
variable {s u : State} {i : Instr} {a : Port}

theorem State.Running.sound_goto (h : s.Running a i u) {l : Label} (hl : u.LabelInv i l a) :
    s.Sound i (Machine.goto l u) :=
  h.goto hl

theorem State.Running.sound_respond (h : s.Running a i u) (r : Response) : s.Sound i (Machine.respond r u) :=
  h.respond r

end

/-! ### The producer's steps from a sound state -/

section
variable {s u : State} {i : Instr}

/-- A claim starts at the producer cursor and is free by the gate (40_producer_commands.md R98, R99). -/
theorem Claimed.bounds (ho : s.GateOperands i) (hc : s.Claimed) :
    s.p.ppos = s.pseq.cursor ∧ s.p.next.toInt = s.pseq.cursor.toInt + s.p.n.toInt ∧ 0 ≤ s.p.n.toInt ∧
      s.p.n.toInt ≤ s.size.toInt ∧ s.p.next.toInt - s.size.toInt ≤ s.pseq.gate.toInt ∧
      s.p.next.toInt + s.size.toInt ≤ maxInt64 := by
  obtain ⟨⟨hpos, hnext, hwrap, hmax⟩, hg⟩ := hc
  obtain ⟨-, h0, hle, -⟩ := ho
  rw [hpos] at hnext
  exact ⟨hpos, hnext, h0, hle, by omega, hmax⟩

theorem overflows_eq_false {next : Int} : overflows s next = false ↔ next + s.size.toInt ≤ maxInt64 := by
  simp [overflows]

/-- G1 computes the claim and looks at the gate (40_producer_commands.md R96). -/
theorem gateStep_G1_sound {after : Label} {onEos : State → Out} (h : s.Running .P i s) (ho : s.GateOperands i) :
    s.Sound i (gateStep after onEos .G1 s) := by
  obtain ⟨h0, hcp, hps, hmax⟩ := h.shared.ring
  have hsz := minInt64_le_toInt s.size
  have ⟨hr, hn0, hns, hcase⟩ := ho
  unfold gateStep
  simp only
  split
  · next hov =>
    simp only [overflows, decide_eq_true_eq] at hov
    intro hfar
    unfold State.FarFromHorizon at hfar
    omega
  next hov =>
  simp only [overflows, decide_eq_true_eq, not_lt] at hov
  generalize hx : { s.p with
    ppos := s.pseq.cursor, next := narrow (s.pseq.cursor.toInt + s.p.n.toInt)
    wrap := narrow (s.pseq.cursor.toInt + s.p.n.toInt - s.size.toInt), g := s.pseq.gate } = x
  have hnext : (narrow (s.pseq.cursor.toInt + s.p.n.toInt)).toInt = s.pseq.cursor.toInt + s.p.n.toInt :=
    toInt_narrow _ (by unfold minInt64; omega) (by omega)
  have hwrap : (narrow (s.pseq.cursor.toInt + s.p.n.toInt - s.size.toInt)).toInt =
      s.pseq.cursor.toInt + s.p.n.toInt - s.size.toInt :=
    toInt_narrow _ (by unfold minInt64; unfold maxInt64 at *; omega) (by omega)
  have hops : (s.setP x).GateOperands i := by
    subst hx
    refine ⟨hr, hn0, hns, hcase.imp id fun ⟨hi, hpos, h1, hblk, hidx⟩ => ⟨hi, rfl, h1, hblk, ?_⟩⟩
    rw [hpos] at hidx
    exact hidx
  have hlat : (s.setP x).GateLatches := by
    subst hx
    exact ⟨rfl, hnext, by simp only [setP_p, setP_size, hnext, hwrap], by simp only [setP_p, setP_size, hnext, hov]⟩
  split
  · exact (h.setP x).sound_goto (l := .G2) ⟨hops, hlat⟩
  · next hw =>
    simp only [gateWaits, Bool.or_eq_true, decide_eq_true_eq, not_or, not_lt] at hw
    refine (h.setP x).sound_goto (l := .G4) ⟨hops, hlat, ?_⟩
    subst hx
    exact hwrap.trans_le hw.1

/-- G2 samples the consumer cursor; when the claim is free by it, it is the new gate (R96). -/
theorem gateStep_G2_sound {after : Label} {onEos : State → Out} (h : s.Running .P i s) (ho : s.GateOperands i)
    (hl : s.GateLatches) : s.Sound i (gateStep after onEos .G2 s) := by
  have ⟨hr, hn0, hns, hcase⟩ := ho
  have ⟨hpos, hnext, hwrap, hmax⟩ := hl
  obtain ⟨hfl, hsam⟩ := sample_bounds h.shared.floors
  obtain ⟨hf0, -⟩ := FloorInv.bounds h.shared.floors s.turn
  rw [h.turn] at hsam
  have hu := h.noteSample.setP { s.p with c := s.sample }
  have hops : (s.noteSample.setP { s.p with c := s.sample }).GateOperands i := by
    simpa [State.GateOperands, State.idx] using ho
  have hlat : (s.noteSample.setP { s.p with c := s.sample }).GateLatches := by
    simpa [State.GateLatches] using hl
  unfold gateStep
  simp only
  split
  · next hw =>
    rw [hpos] at hnext
    refine (hu.setGate (v := s.sample) (by simpa using hr) (by omega) ?_ ?_).sound_goto (l := .G4)
      ⟨hops, hlat, hw⟩
    · simpa [State.otherCursor] using hsam
    · simp; omega
  · exact hu.sound_goto (l := .G3) ⟨hops, hlat⟩

/-- Steps G1 to G4 of a running gate (R96). -/
theorem gateStep_sound {after l : Label} {onEos : State → Out} (h : s.Running .P i s)
    (hmem : l ∈ [Label.G1, .G2, .G3, .G4]) (hl : s.PLabelInv i l)
    (hafter : s.GateOperands i → s.Claimed → s.PLabelInv i after)
    (heos : s.rsv.valid = false → s.Sound i (onEos s)) : s.Sound i (gateStep after onEos l s) := by
  simp only [List.mem_cons, List.not_mem_nil, or_false] at hmem
  rcases hmem with rfl | rfl | rfl | rfl
  · exact gateStep_G1_sound h hl
  · exact gateStep_G2_sound h hl.1 hl.2
  · obtain ⟨ho, hg⟩ := hl
    unfold gateStep
    simp only
    split
    · exact heos ho.1
    · exact h.sound_goto (l := .G2) ⟨ho, hg⟩
  · exact h.sound_goto (hafter hl.1 hl.2)

/-! #### Bytes stored ahead of the producer cursor -/

/-- A run copied to the ring holds at its positions, and the `SIZE` positions that end with it but for the run keep
their bytes (20_memory.md R51, R58, R70). -/
theorem ringCopy_at (hs : s.SizeInv) {pos : Word} {v : List Byte} {m : Memory} (h0 : 0 ≤ pos.toInt)
    (hlen : (v.length : Int) ≤ s.size.toInt) (hmax : pos.toInt + v.length ≤ maxInt64)
    (hc : ringCopy s.buf s.sizeNat (s.idx pos) v = .ok m) :
    (s.setBuf m).Holds pos.toInt v ∧
      ∀ q, 0 ≤ q → q < pos.toInt → pos.toInt + v.length - s.size.toInt ≤ q → (s.setBuf m).at q = s.at q := by
  obtain ⟨hsize, -, -, -, hidx, hmod⟩ := SizeInv.facts hs
  have hs' : (s.setBuf m).SizeInv := hs
  have hbuf : (s.setBuf m).sizeNat = s.sizeNat := rfl
  refine ⟨fun j hj => ?_, fun q hq0 hqp hq => ?_⟩
  · rw [at_eq_read hs' _ (by omega) (by omega), hbuf, setBuf_buf,
      ← ringCopy_read_in _ _ _ _ j v (hidx pos) (by omega) hj hc, hmod pos h0, Nat.mod_add_mod]
    congr 2
    omega
  · rw [at_eq_read hs' q hq0 (by omega), at_eq_read hs q hq0 (by omega), hbuf, setBuf_buf]
    apply ringCopy_read_out _ _ _ _ _ _ hc
    by_contra hcov
    obtain ⟨j, hj, he⟩ := ringCovers_image _ _ v.length _ (hidx pos) (by omega) (by simpa using hcov)
    rw [hmod pos h0, Nat.mod_add_mod] at he
    exact mod_ne_of_lt_of_lt_add (n := s.sizeNat) (a := q.toNat) (b := pos.toInt.toNat + j) (by omega) (by omega) he

/-- A copy to free positions from the producer cursor on keeps the invariant (R58). -/
theorem State.Running.copyToRing (h : s.Running .P i u) {v : List Byte}
    (hfree : u.pseq.cursor.toInt + v.length - u.size.toInt ≤ u.pseq.gate.toInt)
    (hlen : (v.length : Int) ≤ u.size.toInt) (hmax : u.pseq.cursor.toInt + v.length ≤ maxInt64) :
    ∃ m, ringCopy u.buf u.sizeNat (u.idx u.pseq.cursor) v = .ok m ∧ s.Running .P i (u.setBuf m) ∧
      (u.setBuf m).Holds u.pseq.cursor.toInt v := by
  obtain ⟨h0, hcp, -, -⟩ := h.shared.ring
  obtain ⟨-, hgc, -⟩ := h.shared.gate
  obtain ⟨hbuf, -, hbufB, -⟩ := h.shared.spaces
  obtain ⟨hsize, -, -, -, hidx, -⟩ := SizeInv.facts h.shared.size
  obtain ⟨m, hm⟩ := ringCopy_total u.buf u.sizeNat (u.idx u.pseq.cursor) v (hidx _) (by omega)
  obtain ⟨hholds, hkept⟩ := ringCopy_at h.shared.size (by omega) hlen hmax hm
  exact ⟨m, hm, h.setBuf (ringCopy_wf _ _ _ _ _ hbuf hm) (ringCopy_bound _ _ _ _ _ hbufB hm)
    (fun q h1 h2 => hkept q (by omega) h2 (by omega)), hholds⟩

/-- Bytes that hold at a run of positions are there. -/
theorem State.Holds.isSome {pos q : Int} {v : List Byte} (h : s.Holds pos v) (h1 : pos ≤ q) (h2 : q < pos + v.length) :
    (s.at q).isSome = true := by
  have := h (q - pos).toNat (by omega)
  rw [show pos + ((q - pos).toNat : Int) = q by omega] at this
  rw [this, List.getElem?_eq_getElem (by omega)]
  rfl

/-! #### WRITE, RSVE, PUBL -/

/-- W1 tests the count (R92). -/
theorem writeStep_W1_sound {ret : Response → State → Out} (h : s.Running .P i u) (hi : isWriting i = true)
    (hr : u.rsv.valid = false)
    (hdata : 0 ≤ u.p.n.toInt → u.p.n.toInt ≤ u.size.toInt → (u.p.data.length : Int) = u.p.n.toInt)
    (hret : ∀ r, s.Sound i (ret r u)) : s.Sound i (writeStep ret .W1 u) := by
  unfold writeStep
  simp only
  split
  · exact hret _
  · next he =>
    obtain ⟨h0, hle⟩ := argError_eq_none.1 he
    exact h.sound_goto (l := .G1) ⟨hr, h0, hle, .inl ⟨hi, hdata h0 hle⟩⟩

/-- The claim of a WRITE in execution is of as many bytes as its payload has. -/
theorem GateOperands.data_length (ho : s.GateOperands i) (hi : isWriting i = true) :
    (s.p.data.length : Int) = s.p.n.toInt := by
  obtain ⟨-, -, -, ⟨-, hd⟩ | ⟨hres, -⟩⟩ := ho
  · exact hd
  · cases i <;> simp [isWriting, isReserving] at hi hres

/-- The steps of WRITE after W1 (R92). -/
theorem writeStep_sound {ret : Response → State → Out} {l : Label} (h : s.Running .P i s) (hi : isWriting i = true)
    (hmem : l ∈ [Label.G1, .G2, .G3, .G4, .W3, .W4]) (hl : s.PLabelInv i l)
    (hret : ∀ r u, s.Running .P i u → u.rsv.valid = false → s.Sound i (ret r u)) :
    s.Sound i (writeStep ret l s) := by
  cases l with
  | G1 | G2 | G3 | G4 =>
    exact gateStep_sound (after := .W3) h (by simp) hl (fun ho hc => ⟨hi, ho, hc⟩) (hret ⟨.eos, 0, 0, []⟩ s h)
  | W3 =>
    obtain ⟨-, ho, hc⟩ := hl
    obtain ⟨hpos, hnext, -, hle, hg, hmax⟩ := Claimed.bounds ho hc
    have hd := GateOperands.data_length ho hi
    have hsz := h.shared.ring.1
    obtain ⟨m, hm, hu, hh⟩ := h.copyToRing (v := s.p.data) (by omega) (by omega) (by omega)
    rw [← hpos] at hm hh
    simp only [writeStep, hm]
    exact hu.sound_goto (l := .W4) ⟨hi, ho, hc, hh⟩
  | W4 =>
    obtain ⟨-, ho, hc, hh⟩ := hl
    obtain ⟨hpos, hnext, h0, hle, hg, hmax⟩ := Claimed.bounds ho hc
    have hd := GateOperands.data_length ho hi
    rw [hpos] at hh
    refine hret _ _ (h.storePseq ho.1 (by omega) hg hmax fun q h1 h2 => hh.isSome h1 (by omega)) ho.1
  | _ => simp at hmem

/-- The run RSVE asks for has at least one byte, at most `RBLK`, and ends at the physical end at the latest (R94). -/
theorem reserveLen_bounds (h : s.SharedInv) (pos : Word) :
    (narrow (reserveLen s pos)).toInt = reserveLen s pos ∧ 1 ≤ reserveLen s pos ∧
      reserveLen s pos ≤ s.params.rblk ∧ s.idx pos + reserveLen s pos ≤ s.size.toInt ∧
      reserveLen s pos ≤ s.size.toInt := by
  obtain ⟨hr, -⟩ := Params.ok_facts h.params
  obtain ⟨hsize, -, -, -, hidx, -⟩ := SizeInv.facts h.size
  have hlt := hidx pos
  have hmax := toInt_le_maxInt64 s.size
  unfold reserveLen
  exact ⟨toInt_narrow _ (by unfold minInt64; omega) (by omega), by omega, by omega, by omega, by omega⟩

/-- V1 asks for a run at the producer cursor (R94). -/
theorem rsveStep_V1_sound {ret : Response → State → Out} (h : s.Running .P i u) (hi : isReserving i = true)
    (hr : u.rsv.valid = false) : s.Sound i (rsveStep ret .V1 u) := by
  obtain ⟨hn, h1, hblk, hidx, hle⟩ := reserveLen_bounds h.shared u.pseq.cursor
  refine (h.setP _).sound_goto (l := .G1) ⟨hr, ?_⟩
  simp only [setP_p, setP_size, setP_pseq, setP_params, hn]
  exact ⟨by omega, hle, .inr ⟨hi, trivial, h1, hblk, hidx⟩⟩

/-- The claim of an RSVE in execution is a run R32 allows. -/
theorem GateOperands.reservation (ho : s.GateOperands i) (hi : isReserving i = true) :
    1 ≤ s.p.n.toInt ∧ s.p.n.toInt ≤ s.params.rblk ∧ s.idx s.p.ppos + s.p.n.toInt ≤ s.size.toInt := by
  obtain ⟨-, -, -, ⟨hw, -⟩ | ⟨-, -, hres⟩⟩ := ho
  · cases i <;> simp [isWriting, isReserving] at hi hw
  · exact hres

/-- The steps of RSVE after V1 (R94). -/
theorem rsveStep_sound {ret : Response → State → Out} {l : Label} (h : s.Running .P i s) (hi : isReserving i = true)
    (hmem : l ∈ [Label.G1, .G2, .G3, .G4, .V3]) (hl : s.PLabelInv i l)
    (hret : ∀ r u, s.Running .P i u → (r.status ≠ .eos → u.rsv.valid = true) → s.Sound i (ret r u)) :
    s.Sound i (rsveStep ret l s) := by
  cases l with
  | G1 | G2 | G3 | G4 =>
    exact gateStep_sound (after := .V3) h (by simp) hl (fun ho hc => ⟨hi, ho, hc⟩)
      (fun _ => hret ⟨.eos, 0, 0, []⟩ s h (absurd rfl))
  | V3 =>
    obtain ⟨-, ho, hc⟩ := hl
    obtain ⟨hpos, hnext, -, -, hg, hmax⟩ := Claimed.bounds ho hc
    obtain ⟨h1, hblk, hidx⟩ := GateOperands.reservation ho hi
    refine hret _ _ (h.setRsv fun _ => ?_) fun _ => rfl
    simp only [setRsv_rsv, setRsv_pseq, setRsv_size, setRsv_params, hpos]
    rw [hpos] at hidx
    exact ⟨trivial, h1, hblk, hidx, by omega, by omega⟩
  | _ => simp at hmem

/-- U1 stores the payload at the reservation (R95). -/
theorem publStep_U1_sound {ret : Response → State → Out} (h : s.Running .P i u) (hi : i = .readFrom ∨ ∃ k, i = .publ k)
    (hp : u.Publishing) : s.Sound i (publStep ret .U1 u) := by
  have ⟨hv, hd, hle⟩ := hp
  obtain ⟨hpos, h1, hblk, hidx, hg, hmax⟩ := h.shared.rsv hv
  obtain ⟨hsize, -⟩ := SizeInv.facts h.shared.size
  rw [hpos] at hidx hg hmax
  obtain ⟨m, hm, hu, hh⟩ := h.copyToRing (v := u.p.data) (by omega) (by omega) (by omega)
  rw [ringCopy_contiguous _ _ _ _ (by omega)] at hm
  have hfits : u.idx u.pseq.cursor + u.p.data.length ≤ u.sizeNat := by omega
  have hov : overflows u (u.pseq.cursor.toInt + u.p.n.toInt) = false := overflows_eq_false.2 (by omega)
  cases hm
  simp only [publStep, hpos, hov, memWrite, hfits, if_true, Bool.false_eq_true, if_false]
  refine hu.sound_goto (l := .U2) ⟨hi, hp, ?_⟩
  rw [setBuf_rsv, hpos]
  exact hh

/-- U2 publishes and ends the reservation (R95). -/
theorem publStep_U2_sound {ret : Response → State → Out} (h : s.Running .P i s) (hp : s.Publishing)
    (hh : s.Holds s.rsv.pos.toInt s.p.data)
    (hret : ∀ r u, s.Running .P i u → u.rsv.valid = false → s.Sound i (ret r u)) :
    s.Sound i (publStep ret .U2 s) := by
  have ⟨hv, hd, hle⟩ := hp
  obtain ⟨hpos, h1, hblk, hidx, hg, hmax⟩ := h.shared.rsv hv
  have hc0 := h.shared.ring.1.trans h.shared.ring.2.1
  rw [hpos] at hg hmax hh
  have hn : (narrow (s.rsv.pos.toInt + s.p.n.toInt)).toInt = s.pseq.cursor.toInt + s.p.n.toInt := by
    rw [hpos]
    exact toInt_narrow _ (by unfold minInt64; omega) (by have := h.shared.ring; omega)
  have hu : s.Running .P i (s.setRsv { s.rsv with valid := false }) := h.setRsv nofun
  refine hret _ _ (hu.storePseq (v := narrow (s.rsv.pos.toInt + s.p.n.toInt)) rfl ?_ ?_ ?_ ?_) rfl
  all_goals simp only [setRsv_pseq, setRsv_size, hn]
  · omega
  · omega
  · omega
  · exact fun q hq1 hq2 => hh.isSome hq1 (by omega)

/-! #### READFROM, READFROMB -/

/-- A call to the source (42_macro_commands.md R116) leads to the inner command with as many bytes as its count, at most
as many as were asked for. -/
theorem srcRead_sound {max : Int} {next : Label} (h : s.Running .P i s) (hs : s.ReadyInv) (hmax : max ≤ maxInt64)
    (hkept : ∀ a rest, s.env.source = a :: rest → s.ContractsKept → a.fits max = true)
    (hl : ∀ x : PLatches, (x.data.length : Int) = x.n.toInt → x.n.toInt ≤ max → (s.setP x).PLabelInv i next) :
    s.Sound i (srcRead max next s) := by
  unfold srcRead
  split
  · exact ⟨hs, le_rfl, le_rfl⟩
  next a rest hsrc =>
  split
  · next hf =>
    simp only [SrcAnswer.fits, Bool.and_eq_true, decide_eq_true_eq] at hf
    obtain ⟨hlen, -⟩ := hf
    have hn : (narrow a.data.length).toInt = a.data.length := toInt_narrow _ (by unfold minInt64; omega) (by omega)
    refine ((h.setEnv _).setP _).sound_goto ?_
    exact hl { s.p with n := narrow a.data.length, data := a.data, err := a.err } hn.symm (hn.trans_le hlen)
  · next hf => exact fun hc => hf (hkept a rest hsrc hc)

/-- The end of an iteration goes round, or responds (R118 F4, R119 E3). -/
theorem sourceEnd_sound {again : Label} (h : s.Running .P i s) (hl : s.PLabelInv i again) :
    s.Sound i (sourceEnd again s) := by
  unfold sourceEnd
  split
  · exact h.sound_goto hl
  · exact h.sound_respond _
  · exact h.sound_respond _

theorem readFromAfterRsve_sound {r : Response} (h : s.Running .P .readFrom u)
    (hv : r.status ≠ .eos → u.rsv.valid = true) :
    s.Sound .readFrom (readFromAfterRsve r u) := by
  unfold readFromAfterRsve
  split
  · exact h.sound_respond _
  · next he => exact h.sound_goto (l := .F2) ⟨rfl, hv he⟩

theorem readFromAfterPubl_sound {r : Response} (h : s.Running .P .readFrom u) (hv : u.rsv.valid = false) :
    s.Sound .readFrom (readFromAfterPubl r u) :=
  (h.setP _).sound_goto (l := .F4) ⟨rfl, hv⟩

theorem readFromBAfterWrite_sound {r : Response} (h : s.Running .P .readFromB u) (hv : u.rsv.valid = false) :
    s.Sound .readFromB (readFromBAfterWrite r u) := by
  unfold readFromBAfterWrite
  simp only
  split
  · exact (h.setP _).sound_goto (l := .E3) ⟨rfl, hv⟩
  · exact (h.setP _).sound_respond _

/-- READFROM in its middle (R118). -/
theorem readFromStep_sound {l : Label} (h : s.Running .P .readFrom s) (hs : s.ReadyInv)
    (hph : s.phase = .run .readFrom l) (hl : s.PLabelInv .readFrom l) : s.Sound .readFrom (readFromStep l s) := by
  cases l with
  | F2 =>
    refine srcRead_sound h hs (toInt_le_maxInt64 _) (fun a rest hsrc hc => hc.1 a rest hsrc hph) ?_
    exact fun x hlen hle => ⟨rfl, hl.2, hlen, hle⟩
  | F4 => exact sourceEnd_sound h ⟨rfl, hl.2⟩
  | V1 => exact rsveStep_V1_sound (ret := readFromAfterRsve) h.raiseFloor rfl (by simpa using hl.2)
  | U1 =>
    exact publStep_U1_sound (ret := readFromAfterPubl) h.raiseFloor (.inl rfl)
      (by simpa [State.Publishing] using hl.2)
  | U2 => exact publStep_U2_sound (ret := readFromAfterPubl) h hl.2.1 hl.2.2 (fun r u hu => readFromAfterPubl_sound hu)
  | G1 | G2 | G3 | G4 | V3 =>
    exact rsveStep_sound (ret := readFromAfterRsve) h rfl (by simp) hl (fun r u hu => readFromAfterRsve_sound hu)
  | W1 | W3 | W4 | E1 | E3 | L2 => exact absurd hl.1 nofun
  | _ => exact hl.elim

/-- READFROMB in its middle (R119). -/
theorem readFromBStep_sound {l : Label} (h : s.Running .P .readFromB s) (hs : s.ReadyInv)
    (hph : s.phase = .run .readFromB l) (hl : s.PLabelInv .readFromB l) : s.Sound .readFromB (readFromBStep l s) := by
  cases l with
  | E1 =>
    obtain ⟨hsize, -, hmax, hrblk, -⟩ := SizeInv.facts h.shared.size
    refine srcRead_sound h hs (by unfold maxInt64; omega) (fun a rest hsrc hc => hc.2.1 a rest hsrc hph) ?_
    exact fun x hlen hle => ⟨rfl, hl.2, hle, hlen⟩
  | E3 => exact sourceEnd_sound h ⟨rfl, hl.2⟩
  | W1 =>
    obtain ⟨-, hr, -, hd⟩ := hl
    exact writeStep_W1_sound h.raiseFloor rfl (by simpa using hr) (fun _ _ => by simpa using hd)
      (fun r => readFromBAfterWrite_sound h.raiseFloor (by simpa using hr))
  | G1 | G2 | G3 | G4 | W3 | W4 =>
    exact writeStep_sound (ret := readFromBAfterWrite) h rfl (by simp) hl (fun r u hu => readFromBAfterWrite_sound hu)
  | V1 | V3 | F2 | U1 | F4 | L2 => exact absurd hl.1 nofun
  | U2 => exact absurd hl.1 (by simp)
  | _ => exact hl.elim

/-! #### The producer's commands in their middle -/

theorem writeStep_middle_sound {n : Word} {l : Label} (h : s.Running .P (.write n) s) (hl : s.PLabelInv (.write n) l) :
    s.Sound (.write n) (writeStep Machine.respond l s) := by
  cases l with
  | G1 | G2 | G3 | G4 | W3 | W4 =>
    exact writeStep_sound h rfl (by simp) hl (fun r u hu _ => hu.sound_respond r)
  | W1 | V1 | V3 | F2 | U1 | F4 | E1 | E3 | L2 => exact absurd hl.1 nofun
  | U2 => exact absurd hl.1 (by simp)
  | _ => exact hl.elim

theorem rsveStep_middle_sound {l : Label} (h : s.Running .P .rsve s) (hl : s.PLabelInv .rsve l) :
    s.Sound .rsve (rsveStep Machine.respond l s) := by
  cases l with
  | G1 | G2 | G3 | G4 | V3 => exact rsveStep_sound h rfl (by simp) hl (fun r u hu _ => hu.sound_respond r)
  | W1 | W3 | W4 | V1 | F2 | U1 | F4 | E1 | E3 | L2 => exact absurd hl.1 nofun
  | U2 => exact absurd hl.1 (by simp)
  | _ => exact hl.elim

/-- No gate runs inside a PUBL. -/
theorem GateOperands.not_publ {k : Word} : ¬ s.GateOperands (.publ k) := by
  simp [State.GateOperands, isWriting, isReserving]

theorem publStep_middle_sound {k : Word} {l : Label} (h : s.Running .P (.publ k) s) (hl : s.PLabelInv (.publ k) l) :
    s.Sound (.publ k) (publStep Machine.respond l s) := by
  cases l with
  | U2 => exact publStep_U2_sound h hl.2.1 hl.2.2 (fun r u hu _ => hu.sound_respond r)
  | G1 => exact (GateOperands.not_publ hl).elim
  | G2 | G3 | G4 => exact (GateOperands.not_publ hl.1).elim
  | W1 | W3 | W4 | V1 | V3 | F2 | U1 | F4 | E1 | E3 | L2 => exact absurd hl.1 nofun
  | _ => exact hl.elim

end

/-! ### The consumer's steps from a sound state -/

section
variable {s u : State} {i : Instr}

/-- Steps K1 to K4 of a running consumer wait (41_consumer_commands.md R107). -/
theorem cwaitStep_sound {after l : Label} {onEos : State → Out} (h : s.Running .C i s)
    (hmem : l ∈ [Label.K1, .K2, .K3, .K4]) (hl : s.CLabelInv i l)
    (hafter : ∀ u : State, u.WaitOperands i → u.DataHeld → u.CLabelInv i after)
    (heos : s.Sound i (onEos s.bumpCwait)) : s.Sound i (cwaitStep after onEos l s) := by
  cases l with
  | K1 => exact (h.setC _).sound_goto (l := .K2) ⟨hl, rfl⟩
  | K2 =>
    obtain ⟨hw, hpos⟩ := hl
    obtain ⟨-, hsam⟩ := sample_bounds h.shared.floors
    rw [h.turn] at hsam
    have hu := h.noteSample.setC { s.c with ppos := s.sample }
    have hw' : (s.noteSample.setC { s.c with ppos := s.sample }).WaitOperands i := by
      simpa [State.WaitOperands] using hw
    have hpos' : s.c.cpos = (s.noteSample.setC { s.c with ppos := s.sample }).cseq.cursor := by simpa using hpos
    unfold cwaitStep
    simp only
    split
    · next hlt =>
      exact hu.sound_goto (l := .K4) ⟨hw', hpos', hlt, by simpa [State.otherCursor] using hsam⟩
    · exact hu.sound_goto (l := .K3) ⟨hw', hpos'⟩
  | K3 =>
    unfold cwaitStep
    simp only
    split
    · exact heos
    · exact h.bumpCwait.sound_goto (l := .K2) hl
  | K4 =>
    obtain ⟨hw, hd⟩ := hl
    have ⟨hpos, hlt, hle⟩ := hd
    have hc := h.shared.ring.1
    have hmax := toInt_le_maxInt64 s.c.ppos
    have hn : (narrow (s.c.ppos.toInt - s.c.cpos.toInt)).toInt = s.c.ppos.toInt - s.c.cpos.toInt :=
      toInt_narrow _ (by unfold minInt64; omega) (by rw [hpos]; omega)
    exact (h.setC _).sound_goto (hafter _ hw ⟨hd, hn⟩)
  | _ => simp at hmem

/-! #### Bytes read from the consumer cursor on -/

/-- The unread byte at a distance from the consumer cursor, as `BUF` holds it (20_memory.md R48, R53). -/
theorem SharedInv.read_unread (h : s.SharedInv) {j : Nat} (hj : s.cseq.cursor.toInt + j < s.pseq.cursor.toInt) :
    s.buf.read ((s.idx s.cseq.cursor + j) % s.sizeNat) = s.at (s.cseq.cursor.toInt + j) ∧
      (s.at (s.cseq.cursor.toInt + j)).isSome = true := by
  obtain ⟨h0, -⟩ := h.ring
  obtain ⟨-, -, -, -, -, hmod⟩ := SizeInv.facts h.size
  have hmax := toInt_le_maxInt64 s.pseq.cursor
  refine ⟨?_, h.window _ (by omega) hj⟩
  rw [at_eq_read h.size _ (by omega) (by omega), hmod _ h0, Nat.mod_add_mod]
  congr 2
  omega

/-- Unread bytes that lie in one piece can be read (R50, R58). -/
theorem SharedInv.memRead_unread (h : s.SharedInv) {n : Nat} (hend : s.idx s.cseq.cursor + n ≤ s.sizeNat)
    (hn : s.cseq.cursor.toInt + n ≤ s.pseq.cursor.toInt) :
    ∃ v, memRead s.buf s.sizeNat (s.idx s.cseq.cursor) n = .ok v ∧ v.length = n ∧
      s.Holds s.cseq.cursor.toInt v := by
  have hread : ∀ j, j < n → s.buf.read (s.idx s.cseq.cursor + j) = s.at (s.cseq.cursor.toInt + j) ∧
      (s.at (s.cseq.cursor.toInt + j)).isSome = true := fun j hj => by
    have := SharedInv.read_unread h (j := j) (by omega)
    rwa [Nat.mod_eq_of_lt (by omega)] at this
  obtain ⟨v, hv⟩ := Memory.readRun_isSome s.buf (s.idx s.cseq.cursor) n h.spaces.1
    (fun j hj => by rw [(hread j hj).1]; exact (hread j hj).2)
  have hlen := Memory.readRun_length _ _ _ _ hv
  refine ⟨v, by simp [memRead, hend, hv], hlen, fun j hj => ?_⟩
  rw [← (hread j (by omega)).1, Memory.readRun_byte _ _ _ j _ hv (by omega)]

/-- The wrapping copy of PEEK succeeds when every byte of the run is there (R110). -/
theorem splitCopy_total {buf tmp : Memory} {size start m : Nat} (hbuf : buf.wf) (htmp : tmp.wf) (hs : start < size)
    (hm : size - start < m) (hms : m ≤ size)
    (hread : ∀ j, j < m → (buf.read ((start + j) % size)).isSome = true) :
    ∃ view tmp', splitCopy buf tmp size start m = .ok (view, tmp') := by
  obtain ⟨front, hf⟩ := Memory.readRun_isSome buf start (size - start) hbuf fun j hj => by
    have := hread j (by omega)
    rwa [Nat.mod_eq_of_lt (by omega)] at this
  obtain ⟨back, hb⟩ := Memory.readRun_isSome buf 0 (m - (size - start)) hbuf fun j hj => by
    have := hread (j + (size - start)) (by omega)
    rwa [show start + (j + (size - start)) = j + size by omega, Nat.add_mod_right, Nat.mod_eq_of_lt (by omega),
      ← Nat.zero_add j] at this
  have hfl := Memory.readRun_length _ _ _ _ hf
  have hbl := Memory.readRun_length _ _ _ _ hb
  obtain ⟨view, hv⟩ := Memory.readRun_isSome ((tmp.write 0 front).write (size - start) back) 0 m
    (Memory.write_wf _ _ _ (Memory.write_wf _ _ _ htmp)) fun j hj => by
      rw [Nat.zero_add]
      by_cases hj' : j < size - start
      · rw [Memory.read_write_out _ _ _ _ (by omega), Memory.read_write_in _ _ _ _ (by omega) (by omega),
          List.getElem?_eq_getElem (by omega)]
        rfl
      · rw [Memory.read_write_in _ _ _ _ (by omega) (by omega), List.getElem?_eq_getElem (by omega)]
        rfl
  have e1 : start + (size - start) ≤ size := by omega
  have e2 : 0 + front.length ≤ size := by omega
  have e3 : 0 + (m - (size - start)) ≤ size := by omega
  have e4 : size - start + back.length ≤ size := by omega
  have e5 : 0 + m ≤ size := by omega
  exact ⟨view, (tmp.write 0 front).write (size - start) back, by
    simp only [splitCopy, memRead, memWrite, e1, e2, e3, e4, e5, if_true, hf, hb, hv]⟩

/-! #### READ, PEEK, COMMIT -/

/-- A1 tests the capacity (R108). -/
theorem readStep_A1_sound (h : s.Running .C i u) (hi : ∃ n, i = .read n) :
    s.Sound i (readStep Machine.respond .A1 u) := by
  unfold readStep
  simp only
  split
  · exact h.sound_respond _
  · next hn => exact h.sound_goto (l := .K1) ⟨by omega, .inl hi⟩

/-- A READ in its middle (R108). -/
theorem readStep_sound {n : Word} {l : Label} (h : s.Running .C (.read n) s) (hl : s.CLabelInv (.read n) l) :
    s.Sound (.read n) (readStep Machine.respond l s) := by
  cases l with
  | K1 | K2 | K3 | K4 =>
    exact cwaitStep_sound (after := .A3) (onEos := Machine.respond ⟨.eos, 0, 0, []⟩) h (by simp) hl
      (fun u hw hd => ⟨⟨n, rfl⟩, hw.1, hd⟩) (h.bumpCwait.sound_respond _)
  | A3 =>
    obtain ⟨-, hn, ⟨hpos, hlt, hle⟩, havail⟩ := hl
    obtain ⟨hsize, -, -, -, hidx, -⟩ := SizeInv.facts h.shared.size
    have hstart := hidx s.cseq.cursor
    have hmax := toInt_le_maxInt64 s.c.n
    rw [hpos] at hlt havail
    obtain ⟨m, hm⟩ : ∃ m, m = readLen s.c.n.toInt s.c.avail.toInt s.size.toInt (s.idx s.cseq.cursor) := ⟨_, rfl⟩
    have hm' := hm
    unfold readLen at hm'
    have hnm : (narrow m).toInt = m := toInt_narrow _ (by unfold minInt64; omega) (by omega)
    obtain ⟨v, hv, hlen, hh⟩ := SharedInv.memRead_unread h.shared (n := m.toNat) (by omega) (by omega)
    simp only [readStep, hpos, ← hm, hv]
    refine (h.setC _).sound_goto (l := .A4) ⟨⟨n, rfl⟩, rfl, ?_⟩
    simp only [setC_c, setC_pseq, hnm]
    exact ⟨by omega, by omega, by omega, hh⟩
  | A4 =>
    obtain ⟨-, hpos, hm, hle, -⟩ := hl
    have hc := h.shared.ring.1
    have hmax := toInt_le_maxInt64 s.pseq.cursor
    have hn : (narrow (s.c.cpos.toInt + s.c.m.toInt)).toInt = s.c.cpos.toInt + s.c.m.toInt :=
      toInt_narrow _ (by rw [hpos]; unfold minInt64; omega) (by omega)
    rw [hpos] at hn hle
    exact (h.storeCseq (by rw [hpos]; omega) (by rw [hpos]; omega)).sound_respond _
  | B1 | M1 | T2 | T3 | L2 => exact absurd hl.1 nofun
  | B3 => exact absurd rfl (hl.2.1 n)
  | M2 | M3 => exact absurd hl.1 (by simp)
  | _ => exact hl.elim

/-- The response carries unread bytes that start at the consumer cursor, at least one (R110). -/
def State.Shows (s : State) (r : Response) : Prop :=
  (r.rdata.length : Int) = r.n.toInt ∧ 1 ≤ r.n.toInt ∧ s.cseq.cursor.toInt + r.n.toInt ≤ s.pseq.cursor.toInt ∧
    s.Holds s.cseq.cursor.toInt r.rdata

/-- The argument test answers `NEG` or `FULL` (60_exceptions.md R136). -/
theorem argError_eq_some {size n : Int} {e : Status} (h : argError size n = some e) : e = .neg ∨ e = .full := by
  unfold argError at h
  split at h
  · exact .inl (by simpa using h.symm)
  · split at h
    · exact .inr (by simpa using h.symm)
    · cases h

section
variable {ret : Response → State → Out}
  (hret : ∀ r u, s.Running .C i u →
    (i = .writeTo → r.status = .ok ∨ r.status = .insuf → u.Shows r) → s.Sound i (ret r u))
include hret

/-- B1 tests the count (R110). -/
theorem peekStep_B1_sound (h : s.Running .C i u)
    (hw : 0 ≤ u.c.n.toInt → u.c.n.toInt ≤ u.size.toInt → u.WaitOperands i) :
    s.Sound i (peekStep ret .B1 u) := by
  unfold peekStep
  simp only
  split
  · next e he =>
    refine hret _ _ h fun _ hst => ?_
    obtain rfl | rfl := argError_eq_some he <;> simp at hst
  · next he =>
    obtain ⟨h0, hle⟩ := argError_eq_none.1 he
    exact h.sound_goto (l := .K1) (hw h0 hle)

/-- B3 answers the view (R110). -/
theorem peekStep_B3_sound (h : s.Running .C i s) (hl : s.CLabelInv i .B3) : s.Sound i (peekStep ret .B3 s) := by
  obtain ⟨⟨hn, hop⟩, hj, ⟨hpos, hlt, hle⟩, havail⟩ := hl
  obtain ⟨hsize, -, -, -, hidx, -⟩ := SizeInv.facts h.shared.size
  obtain ⟨hc0, -, hps, -⟩ := h.shared.ring
  obtain ⟨hbuf, htmp, -, htmpB⟩ := h.shared.spaces
  have hstart := hidx s.cseq.cursor
  have hmax := toInt_le_maxInt64 s.c.n
  rw [hpos] at hlt havail
  obtain ⟨m, hm⟩ : ∃ m, m = min s.c.n.toInt s.c.avail.toInt := ⟨_, rfl⟩
  have hnm : (narrow m).toInt = m := toInt_narrow _ (by unfold minInt64; omega) (by omega)
  unfold peekStep
  simp only [hpos, ← hm]
  split
  · next hm0 =>
    refine hret _ _ (h.setC _) fun hi _ => ?_
    have hblk := (Params.ok_facts h.shared.params).2.1
    obtain ⟨n, rfl⟩ | ⟨⟨n, rfl⟩, -⟩ | ⟨-, hw⟩ := hop
    · cases hi
    · cases hi
    · omega
  next hm0 =>
  split
  · next hcont =>
    simp only [contiguous, decide_eq_true_eq] at hcont
    obtain ⟨v, hv, hlen, hh⟩ := SharedInv.memRead_unread h.shared hcont (by omega)
    rw [hv]
    exact hret _ _ (h.setC _) fun _ _ => ⟨by simp only [hnm]; omega, by simp only [hnm]; omega, by
      simp only [hnm, setC_cseq, setC_pseq]; omega, hh⟩
  · next hcont =>
    simp only [contiguous, decide_eq_true_eq] at hcont
    have hread : ∀ j, j < m.toNat → s.buf.read ((s.idx s.cseq.cursor + j) % s.sizeNat) =
        s.at (s.cseq.cursor.toInt + j) ∧ (s.at (s.cseq.cursor.toInt + j)).isSome = true :=
      fun j hj' => SharedInv.read_unread h.shared (by omega)
    obtain ⟨view, tmp', hsc⟩ := splitCopy_total hbuf htmp hstart (m := m.toNat) (by omega) (by omega)
      (fun j hj' => by rw [(hread j hj').1]; exact (hread j hj').2)
    obtain ⟨hlen, hbytes, -, -, hwf, hbound⟩ := splitCopy_ok hstart (by omega) (by omega) hsc
    rw [hsc]
    refine hret _ _ ((h.setC _).setTmp (hwf htmp) (hbound htmpB)) fun _ _ => ⟨by simp only [hnm]; omega, by
      simp only [hnm]; omega, by simp only [hnm, setTmp_cseq, setTmp_pseq, setC_cseq, setC_pseq]; omega, ?_⟩
    intro j hj'
    simp only at hj'
    exact (hread j (by omega)).1.symm.trans (hbytes j (by omega))

/-- The steps of PEEK after B1 (R110). -/
theorem peekStep_sound {l : Label} (h : s.Running .C i s) (hi : ∀ n, i ≠ .read n)
    (hmem : l ∈ [Label.K1, .K2, .K3, .K4, .B3]) (hl : s.CLabelInv i l) : s.Sound i (peekStep ret l s) := by
  cases l with
  | K1 | K2 | K3 | K4 =>
    exact cwaitStep_sound (after := .B3) (onEos := ret ⟨.eos, 0, 0, []⟩) h (by simp) hl
      (fun u hw hd => ⟨hw, hi, hd⟩) (hret _ _ h.bumpCwait fun _ hst => by simp at hst)
  | B3 => exact peekStep_B3_sound hret h hl
  | _ => simp at hmem

end

section
variable {ret : Response → State → Out} (hret : ∀ r u, s.Running .C i u → s.Sound i (ret r u))
include hret

/-- M1 tests the count (R112). -/
theorem commitStep_M1_sound (h : s.Running .C i u)
    (hi : 0 ≤ u.c.n.toInt → u.CLabelInv i .M2) : s.Sound i (commitStep ret .M1 u) := by
  unfold commitStep
  simp only
  split
  · exact hret _ _ h
  · next he => exact h.sound_goto (l := .M2) (hi (argError_eq_none.1 he).1)

/-- The steps of COMMIT after M1 (R112). -/
theorem commitStep_sound {l : Label} (h : s.Running .C i s) (hmem : l ∈ [Label.M2, .M3]) (hl : s.CLabelInv i l) :
    s.Sound i (commitStep ret l s) := by
  obtain ⟨hc0, -, -, hmax⟩ := h.shared.ring
  cases l with
  | M2 =>
    obtain ⟨hi, hn⟩ := hl
    obtain ⟨-, hsam⟩ := sample_bounds h.shared.floors
    rw [h.turn, State.otherCursor] at hsam
    have hu := h.noteSample.setC { s.c with cpos := s.cseq.cursor, ppos := s.sample }
    unfold commitStep
    simp only
    split
    · refine hu.sound_goto (l := .M3) ⟨hi.imp And.left id, ?_⟩
      simp only [setC_c, setC_cseq, setC_pseq, noteSample_cseq, noteSample_pseq]
      exact ⟨trivial, hn, by omega⟩
    · exact hret _ _ hu
  | M3 =>
    obtain ⟨-, hpos, hn, hle⟩ := hl
    have hpmax := toInt_le_maxInt64 s.pseq.cursor
    have he : (narrow (s.c.cpos.toInt + s.c.n.toInt)).toInt = s.c.cpos.toInt + s.c.n.toInt :=
      toInt_narrow _ (by rw [hpos]; unfold minInt64; omega) (by omega)
    exact hret _ _ (h.storeCseq (by rw [he, hpos]; omega) (by rw [he]; exact hle))
  | _ => simp at hmem

end

theorem peekStep_middle_sound {n : Word} {l : Label} (h : s.Running .C (.peek n) s) (hl : s.CLabelInv (.peek n) l) :
    s.Sound (.peek n) (peekStep Machine.respond l s) := by
  cases l with
  | K1 | K2 | K3 | K4 | B3 => exact peekStep_sound (fun r u hu _ => hu.sound_respond r) h nofun (by simp) hl
  | A3 | A4 | M2 | M3 => exact absurd hl.1 (by simp)
  | B1 | T2 | T3 | M1 | L2 => exact absurd hl.1 nofun
  | _ => exact hl.elim

theorem WaitOperands.not_commit {n : Word} : ¬ s.WaitOperands (.commit n) := by
  simp [State.WaitOperands]

theorem commitStep_middle_sound {n : Word} {l : Label} (h : s.Running .C (.commit n) s)
    (hl : s.CLabelInv (.commit n) l) : s.Sound (.commit n) (commitStep Machine.respond l s) := by
  cases l with
  | M2 | M3 => exact commitStep_sound (fun r u hu => hu.sound_respond r) h (by simp) hl
  | K1 => exact (WaitOperands.not_commit hl).elim
  | K2 | K3 | K4 | B3 => exact (WaitOperands.not_commit hl.1).elim
  | A3 | A4 => exact absurd hl.1 (by simp)
  | B1 | T2 | T3 | M1 | L2 => exact absurd hl.1 nofun
  | _ => exact hl.elim

/-! #### WRITETO -/

/-- T1: the inner PEEK starts with `WBLK` as its count (42_macro_commands.md R120). -/
theorem startPeek_sound (h : s.Running .C .writeTo u) : s.Sound .writeTo (startPeek u) := by
  obtain ⟨-, -, hw, -⟩ := Params.ok_facts h.shared.params
  obtain ⟨-, -, hmax, hrblk, -⟩ := SizeInv.facts h.shared.size
  have hn : (narrow u.params.wblk).toInt = u.params.wblk :=
    toInt_narrow _ (by unfold minInt64; omega) (by unfold maxInt64; omega)
  exact (h.setC _).sound_goto (l := .B1) ⟨rfl, hn⟩

/-- T3: the inner COMMIT starts with a count of bytes that are there (R120). -/
theorem startCommit_sound {k : Word} (h : s.Running .C .writeTo u) (h0 : 0 ≤ k.toInt)
    (hle : u.cseq.cursor.toInt + k.toInt ≤ u.pseq.cursor.toInt) : s.Sound .writeTo (startCommit k u) :=
  (h.setC _).sound_goto (l := .M1) ⟨rfl, h0, hle⟩

theorem writeToAfterPeek_sound {r : Response} (h : s.Running .C .writeTo u)
    (hr : r.status = .ok ∨ r.status = .insuf → u.Shows r) : s.Sound .writeTo (writeToAfterPeek r u) := by
  unfold writeToAfterPeek
  split
  · next hst => exact (h.setC _).sound_goto (l := .T2) ⟨rfl, hr hst⟩
  · exact h.sound_respond _

theorem writeToAfterCommit_sound {r : Response} (h : s.Running .C .writeTo u) :
    s.Sound .writeTo (writeToAfterCommit r u) := by
  unfold writeToAfterCommit
  split
  · exact startPeek_sound (h.setC _)
  · exact h.sound_respond _

/-- T3 commits what the sink took, or ends (R120). -/
theorem writeToAfterSink_sound (h : s.Running .C .writeTo s) (hl : s.CLabelInv .writeTo .T3) :
    s.Sound .writeTo (writeToAfterSink s) := by
  obtain ⟨-, ⟨-, h1, hle, -⟩, hk0, hkm⟩ := hl
  unfold writeToAfterSink
  split
  · exact startCommit_sound h (by omega) hle
  · simp only
    split
    · exact startCommit_sound (h.setC _) hk0 (by simp only [addTotalC, setC_cseq, setC_pseq]; omega)
    · exact (h.setC _).sound_respond _

/-- T2: the sink takes the view, or part of it with an error (R117). -/
theorem sinkWrite_sound (h : s.Running .C .writeTo s) (hs : s.ReadyInv) (hph : s.phase = .run .writeTo .T2)
    (hl : s.ViewHeld) : s.Sound .writeTo (sinkWrite .T3 s) := by
  have ⟨hlen, h1, hle, hh⟩ := hl
  unfold sinkWrite
  split
  · exact ⟨hs, le_rfl, le_rfl⟩
  next a rest hsink =>
  split
  · next hf =>
    have hcount : a.count ≤ s.c.view.length := by
      unfold SinkAnswer.fits at hf
      split at hf <;> simp at hf <;> omega
    have hmax := toInt_le_maxInt64 s.c.m
    have hk : (narrow a.count).toInt = a.count := toInt_narrow _ (by unfold minInt64; omega) (by omega)
    refine ((h.setEnv _).setC _).sound_goto (l := .T3) ⟨rfl, hl, ?_⟩
    simp only [setC_c, hk]
    omega
  · next hf => exact fun hc => hf (hc.2.2 a rest hsink hph)

/-- WRITETO in its middle (R120). -/
theorem writeToStep_sound {l : Label} (h : s.Running .C .writeTo s) (hs : s.ReadyInv)
    (hph : s.phase = .run .writeTo l) (hl : s.CLabelInv .writeTo l) : s.Sound .writeTo (writeToStep l s) := by
  have hpeek : ∀ r u, s.Running .C .writeTo u → (Instr.writeTo = .writeTo → r.status = .ok ∨ r.status = .insuf →
      u.Shows r) → s.Sound .writeTo (writeToAfterPeek r u) := fun r u hu hr => writeToAfterPeek_sound hu (hr rfl)
  have hcommit : ∀ r u, s.Running .C .writeTo u → s.Sound .writeTo (writeToAfterCommit r u) :=
    fun r u hu => writeToAfterCommit_sound hu
  cases l with
  | T2 => exact sinkWrite_sound h hs hph hl.2
  | T3 => exact writeToAfterSink_sound h hl
  | B1 =>
    refine peekStep_B1_sound hpeek h.raiseFloor fun h0 _ => ⟨h0, .inr (.inr ⟨rfl, ?_⟩)⟩
    simpa using hl.2
  | K1 | K2 | K3 | K4 | B3 => exact peekStep_sound hpeek h nofun (by simp) hl
  | M1 =>
    obtain ⟨-, hn, hle⟩ := hl
    refine commitStep_M1_sound hcommit h.raiseFloor fun h0 => ⟨.inl ⟨rfl, ?_⟩, h0⟩
    have hf := acceptedPort_floor s
    have hp := raiseFloor_port s
    rw [h.turn] at hf hp
    rw [port_C] at hp
    rw [hp, raiseFloor_cseq, raiseFloor_c, hf, State.otherCursor]
    omega
  | M2 | M3 => exact commitStep_sound hcommit h (by simp) hl
  | A3 | A4 => exact absurd hl.1 (by simp)
  | L2 => exact absurd hl.1 nofun
  | _ => exact hl.elim

end

/-! ### Every command from a sound state -/

section
variable {s u : State} {i : Instr} {a : Port}

@[simp] theorem latchOperands_rsv (i : Instr) (s : State) : (latchOperands i s).rsv = s.rsv := by
  cases i <;> rfl

@[simp] theorem accept_rsv (i : Instr) (l : Label) (s : State) : (accept i l s).rsv = s.rsv := by
  simp [accept]

@[simp] theorem latchOperands_size (i : Instr) (s : State) : (latchOperands i s).size = s.size := by
  cases i <;> rfl

@[simp] theorem accept_size (i : Instr) (l : Label) (s : State) : (accept i l s).size = s.size := by
  simp [accept]

/-- The payload latched by a WRITE or PUBL that may be presented is as long as its count, when that is in range
(30_encoding.md R77). -/
theorem takenPayload_length {size n : Word} {payload : List Byte}
    (hfits : (Instr.write n).payloadFits size payload = true) (h0 : 0 ≤ n.toInt) (hle : n.toInt ≤ size.toInt) :
    ((takenPayload size n payload).length : Int) = n.toInt := by
  rw [takenPayload_of_range payload h0 hle]
  simpa [Instr.payloadFits, h0, hle] using hfits

/-- What acceptance latches for a WRITE (10_state.md R34). -/
theorem accept_write (ht : s.turn = .P) (n : Word) (l : Label) :
    (accept (.write n) l s).p = { s.p with n := n, data := takenPayload s.size n s.pPort.payload } := by
  simp [accept, latchOperands, ht]

/-- What acceptance latches for a PUBL (R34). -/
theorem accept_publ (ht : s.turn = .P) (k : Word) (l : Label) :
    (accept (.publ k) l s).p = { s.p with n := k, data := takenPayload s.size k s.pPort.payload } := by
  simp [accept, latchOperands, ht]

/-- What acceptance latches for a READ, PEEK or COMMIT (R34). -/
theorem accept_read (n : Word) (l : Label) : (accept (.read n) l s).c = { s.c with n := n } := by
  simp [accept, latchOperands]

theorem accept_peek (n : Word) (l : Label) : (accept (.peek n) l s).c = { s.c with n := n } := by
  simp [accept, latchOperands]

theorem accept_commit (n : Word) (l : Label) : (accept (.commit n) l s).c = { s.c with n := n } := by
  simp [accept, latchOperands]

/-- What `legal` says (30_encoding.md R86). -/
theorem legal_eq_true : legal a i s = true ↔ s.cfgState = .ready ∧ accepts a i = true ∧ admitted s.rsv i = true := by
  simp [legal, and_assoc]

/-- What the invariant says of an agent in the middle of a command. -/
theorem PhaseInv.run (h : s.PhaseInv a) {l : Label} (hp : (s.port a).phase = .run i l) :
    accepts a i = true ∧ s.LabelInv i l a := by
  cases a with
  | P =>
    change s.pPort.phase = _ at hp
    change s.PPhaseInv at h
    rwa [State.PPhaseInv, hp] at h
  | C =>
    change s.cPort.phase = _ at hp
    change s.CPhaseInv at h
    rwa [State.CPhaseInv, hp] at h

/-- An agent in the middle of a command may take its step. -/
theorem State.ReadyInv.running (h : s.ReadyInv) (hq : s.params.ok = true) {l : Label} (hp : s.phase = .run i l) :
    s.Running s.turn i s ∧ s.LabelInv i l s.turn := by
  obtain ⟨ha, hl⟩ := PhaseInv.run (h.phaseInv s.turn) hp
  exact ⟨⟨rfl, ⟨l, hp⟩, ha, h.shared hq, h.phaseInv _, le_rfl, le_rfl⟩, hl⟩

/-- A command is sound when its first step is, taken at acceptance, and each step in its middle. `b` is the port that
takes the command. -/
theorem command_sound {first : Label} {body : Label → State → Out} {b : Port} (h : s.ReadyInv)
    (hq : s.params.ok = true) (hp : s.phase = .idle ∨ ∃ l, s.phase = .run i l)
    (hb : accepts s.turn i = true → s.turn = b)
    (hfirst : s.turn = b → s.Running b i (accept i first s) → admitted s.rsv i = true →
      i.payloadFits s.size (s.port s.turn).payload = true → s.Sound i (body first (accept i first s)))
    (hbody : ∀ l, s.phase = .run i l → s.Running b i s → s.LabelInv i l b → s.Sound i (body l s)) :
    s.Sound i (command i first body s) := by
  unfold command
  rcases hp with hp | ⟨l, hp⟩
  · rw [hp]
    simp only
    split
    · next hl =>
      obtain ⟨-, ha, hadm⟩ := legal_eq_true.1 hl
      split
      · next hf =>
        have hu := h.accept hq ha first
        rw [hb ha] at hu
        exact hfirst (hb ha) hu hadm hf
      · next hf => exact ⟨hp, by simpa using hf⟩
    · exact ⟨(h.shared hq).respond (h.phaseInv _) _, by simp, by simp⟩
  · obtain ⟨hu, hl⟩ := h.running hq hp
    have ha := hu.accepted
    rw [hp]
    simp only [if_true, ha]
    rw [hb ha] at hu hl
    exact hbody l hp hu hl

/-! #### LEN, ID, CLOSE -/

theorem lenStep_L1_sound (hu : s.Running a .len u) : s.Sound .len (lenStep .L1 u) := by
  have ht := hu.turn
  cases a with
  | P =>
    simp only [lenStep, ht]
    exact (hu.setP _).sound_goto (l := .L2) ⟨rfl, rfl⟩
  | C =>
    simp only [lenStep, ht]
    exact (hu.setC _).sound_goto (l := .L2) ⟨rfl, rfl⟩

theorem lenStep_L2_sound (hu : s.Running a .len u) : s.Sound .len (lenStep .L2 u) := by
  have ht := hu.turn
  cases a with
  | P =>
    simp only [lenStep, ht]
    exact (hu.noteSample.setP _).sound_respond _
  | C =>
    simp only [lenStep, ht]
    exact (hu.noteSample.setC _).sound_respond _

/-- Of the commands of both ports only LEN has a second step (43_common_commands.md R126 to R128). -/
theorem labelInv_common (hi : i = .len ∨ i = .ident ∨ i = .close) {l : Label} (h : s.LabelInv i l a) :
    i = .len ∧ l = .L2 := by
  have hgate : ¬ s.GateOperands i := by
    rcases hi with rfl | rfl | rfl <;> simp [State.GateOperands, isWriting, isReserving]
  have hwait : ¬ s.WaitOperands i := by
    rcases hi with rfl | rfl | rfl <;> simp [State.WaitOperands]
  cases a with
  | P =>
    cases l with
    | L2 => exact ⟨h.1, rfl⟩
    | G1 => exact (hgate h).elim
    | G2 | G3 | G4 => exact (hgate h.1).elim
    | W3 | V3 => exact (hgate h.2.1).elim
    | W4 => exact (hgate h.2.1).elim
    | W1 | V1 | F2 | U1 | F4 | E1 | E3 => rcases hi with rfl | rfl | rfl <;> exact absurd h.1 nofun
    | U2 => rcases hi with rfl | rfl | rfl <;> exact absurd h.1 (by simp)
    | _ => exact h.elim
  | C =>
    cases l with
    | L2 => exact ⟨h.1, rfl⟩
    | K1 => exact (hwait h).elim
    | K2 | K3 | K4 | B3 => exact (hwait h.1).elim
    | B1 | T2 | T3 | M1 => rcases hi with rfl | rfl | rfl <;> exact absurd h.1 nofun
    | A3 | A4 | M2 | M3 => rcases hi with rfl | rfl | rfl <;> exact absurd h.1 (by simp)
    | _ => exact h.elim

/-! #### The first step of WRITE and PUBL -/

theorem writeStep_first_sound {n : Word} (ht : s.turn = .P) (hu : s.Running .P (.write n) (accept (.write n) .W1 s))
    (hadm : admitted s.rsv (.write n) = true)
    (hfits : (Instr.write n).payloadFits s.size (s.port s.turn).payload = true) :
    s.Sound (.write n) (writeStep Machine.respond .W1 (accept (.write n) .W1 s)) := by
  refine writeStep_W1_sound hu rfl (by simpa [admitted] using hadm) ?_ fun r => hu.sound_respond r
  rw [accept_write ht, accept_size]
  rw [ht] at hfits
  exact takenPayload_length hfits

theorem publStep_first_sound {k : Word} (ht : s.turn = .P) (hu : s.Running .P (.publ k) (accept (.publ k) .U1 s))
    (hrsv : s.RsvInv) (hadm : admitted s.rsv (.publ k) = true)
    (hfits : (Instr.publ k).payloadFits s.size (s.port s.turn).payload = true) :
    s.Sound (.publ k) (publStep Machine.respond .U1 (accept (.publ k) .U1 s)) := by
  refine publStep_U1_sound hu (.inr ⟨k, rfl⟩) ?_
  simp only [admitted, Bool.and_eq_true, decide_eq_true_eq] at hadm
  obtain ⟨⟨hv, h0⟩, hle⟩ := hadm
  obtain ⟨-, -, -, hidx, -⟩ := hrsv hv
  rw [ht] at hfits
  have hlen := takenPayload_length (n := k) hfits h0 (by omega)
  unfold State.Publishing
  rw [accept_publ ht, accept_rsv]
  exact ⟨hv, hlen, hle⟩

/-! #### All twelve -/

theorem accepts_producer (hi : isProducer i = true) (ha : accepts a i = true) : a = .P := by
  cases i <;> simp [isProducer, accepts] at hi ha <;> exact ha

theorem accepts_consumer (hi : isConsumer i = true) (ha : accepts a i = true) : a = .C := by
  cases i <;> simp [isConsumer, accepts] at hi ha <;> exact ha

/-- From a sound state a step of any command answers a sound state, or refuses for a reason the spec gives. For each
command: its first step, at acceptance, and then its steps in the middle. -/
theorem exec_sound (h : s.ReadyInv) (hq : s.params.ok = true) (hp : s.phase = .idle ∨ ∃ l, s.phase = .run i l) :
    s.Sound i (exec i s) := by
  cases i with
  | write n =>
    exact command_sound h hq hp (accepts_producer rfl)
      (fun ht hu hadm hfits => writeStep_first_sound ht hu hadm hfits)
      (fun l _ hu hl => writeStep_middle_sound hu hl)
  | rsve =>
    exact command_sound h hq hp (accepts_producer rfl)
      (fun _ hu hadm _ => rsveStep_V1_sound hu rfl (by simpa [admitted] using hadm))
      (fun l _ hu hl => rsveStep_middle_sound hu hl)
  | publ k =>
    exact command_sound h hq hp (accepts_producer rfl)
      (fun ht hu hadm hfits => publStep_first_sound ht hu h.rsv hadm hfits)
      (fun l _ hu hl => publStep_middle_sound hu hl)
  | read cap =>
    exact command_sound h hq hp (accepts_consumer rfl)
      (fun _ hu _ _ => readStep_A1_sound hu ⟨cap, rfl⟩)
      (fun l _ hu hl => readStep_sound hu hl)
  | peek n =>
    exact command_sound h hq hp (accepts_consumer rfl)
      (fun _ hu _ _ => peekStep_B1_sound (fun r u hu _ => hu.sound_respond r) hu
        fun h0 hle => ⟨h0, .inr (.inl ⟨⟨n, rfl⟩, hle⟩)⟩)
      (fun l _ hu hl => peekStep_middle_sound hu hl)
  | commit n =>
    exact command_sound h hq hp (accepts_consumer rfl)
      (fun _ hu _ _ => commitStep_M1_sound (fun r u hu => hu.sound_respond r) hu fun h0 => ⟨.inr ⟨n, rfl⟩, h0⟩)
      (fun l _ hu hl => commitStep_middle_sound hu hl)
  | readFrom =>
    exact command_sound h hq hp (accepts_producer rfl)
      (fun _ hu hadm _ => (hu.setP _).sound_goto (l := .V1) ⟨rfl, by simpa [admitted] using hadm⟩)
      (fun l hph hu hl => readFromStep_sound hu h hph hl)
  | readFromB =>
    exact command_sound h hq hp (accepts_producer rfl)
      (fun _ hu hadm _ => (hu.setP _).sound_goto (l := .E1) ⟨rfl, by simpa [admitted] using hadm⟩)
      (fun l hph hu hl => readFromBStep_sound hu h hph hl)
  | writeTo =>
    exact command_sound h hq hp (accepts_consumer rfl)
      (fun _ hu _ _ => startPeek_sound (hu.setC _))
      (fun l hph hu hl => writeToStep_sound hu h hph hl)
  | close =>
    exact command_sound h hq hp (fun _ => rfl)
      (fun _ hu _ _ => hu.setDone.sound_respond _)
      (fun l _ _ hl => absurd (labelInv_common (by simp) hl).1 nofun)
  | len =>
    refine command_sound h hq hp (fun _ => rfl) (fun _ hu _ _ => lenStep_L1_sound hu) fun l _ hu hl => ?_
    obtain ⟨-, rfl⟩ := labelInv_common (by simp) hl
    exact lenStep_L2_sound hu
  | ident =>
    exact command_sound h hq hp (fun _ => rfl)
      (fun _ hu _ _ => hu.sound_respond _)
      (fun l _ _ hl => absurd (labelInv_common (by simp) hl).1 nofun)

end

/-! ### A step of the machine from a sound state -/

section
variable {s t u : State} {i : Instr} {a : Port}

/-- A step of the machine may answer `o` from the sound state `s`. -/
def State.SoundStep (s : State) : Out → Prop
  | .next t => s.Advances t
  | .fault _ => False
  | .refused r => r = .illFormedPair ∨ r = .cursorOverflow ∨ r = .sourceBroken ∨ r = .sinkBroken

theorem State.Sound.step {o : Out} (h : u.Sound i o) (hp : u.pseq = s.pseq) (hc : u.cseq = s.cseq) :
    s.SoundStep o := by
  cases o with
  | next t => exact ⟨h.ready, by rw [← hp]; exact h.pseq, by rw [← hc]; exact h.cseq⟩
  | fault f => exact h.elim
  | refused r => cases r <;> simp [State.SoundStep, State.Sound, State.MayRefuse] at h ⊢

/-- A pair presented touches the port's inputs and the script only. -/
theorem State.ReadyInv.present (h : s.ReadyInv) (pr : Presented) (rest : List Presented) (a : Port) :
    (present pr rest a s).ReadyInv := by
  cases a with
  | P => exact { h with }
  | C => exact { h with }

theorem present_port (s : State) (pr : Presented) (rest : List Presented) (a : Port) :
    (present pr rest a s).port a = { s.port a with cmd := pr.cmd, payload := pr.payload, script := rest } := by
  simp [Machine.present]

theorem stepPort_sound (h : s.ReadyInv) (hq : s.params.ok = true) (ht : s.turn = a) : s.SoundStep (stepPort a s) := by
  subst ht
  unfold stepPort
  split
  · next i l hp => exact (exec_sound h hq (.inr ⟨l, hp⟩)).step rfl rfl
  next hp =>
  split
  · exact ⟨h, le_rfl, le_rfl⟩
  next pr rest hs =>
  have hu := h.present pr rest s.turn
  have hq' : (Machine.present pr rest s.turn s).params.ok = true := by simpa [Machine.present] using hq
  split
  · next i hd =>
    refine (exec_sound (i := i) hu hq' (.inl ?_)).step (by simp [Machine.present]) (by simp [Machine.present])
    rw [State.phase, show (Machine.present pr rest s.turn s).turn = s.turn by simp [Machine.present], present_port]
    exact hp
  · exact ⟨(hu.shared hq').respond (hu.phaseInv _) _, by simp [Machine.present], by simp [Machine.present]⟩

end

/-! ### Reset and the failed configuration -/

section
variable {s t u : State} {i : Instr} {a : Port}

/-- A size that configuration accepts is legal (70_reset_and_hazards.md R149; 10_state.md R15). -/
theorem checkSize_size {q : Params} {z w : Word} (h : checkSize q z = .size w) :
    ∃ k, k ≤ 62 ∧ w.toNat = 2 ^ k ∧ q.minSize ≤ w.toNat := by
  unfold checkSize at h
  split at h
  · cases h
  simp only at h
  generalize (if z = 0 then narrow q.defSize else z) = x at h
  split at h
  · cases h
  next hpow =>
  split at h
  · cases h
  next hmin =>
  obtain rfl := CfgResult.size.inj h
  obtain ⟨k, hk, hw⟩ := pow2_of_isPow2 _ (by simpa using hpow)
  refine ⟨k, hk, hw, ?_⟩
  have hle : (2 : Nat) ^ k ≤ 2 ^ 62 := Nat.pow_le_pow_right (by norm_num) hk
  norm_num at hle
  have := toInt_eq_toNat_of_lt _ (hw.trans_lt (by omega))
  omega

/-- A word that is a power of two of at most `2^62`, as a signed number, and the word one below it. -/
theorem toInt_pow2 {w : Word} {k : Nat} (hk : k ≤ 62) (hw : w.toNat = 2 ^ k) :
    w.toInt = w.toNat ∧ 1 ≤ w.toInt ∧ w.toInt ≤ 4611686018427387904 ∧ (narrow (w.toInt - 1)).toInt = w.toInt - 1 := by
  have hle : (2 : Nat) ^ k ≤ 2 ^ 62 := Nat.pow_le_pow_right (by norm_num) hk
  norm_num at hle
  have hpos : 1 ≤ 2 ^ k := Nat.one_le_two_pow
  have e := toInt_eq_toNat_of_lt w (by omega)
  exact ⟨e, by omega, by omega, toInt_narrow _ (by unfold minInt64; omega) (by unfold maxInt64; omega)⟩

/-- A reset leads to a sound state, whatever it finds (R149, R150, R157). -/
theorem resetWith_inv (hq : s.params.ok = true) (z id : Word) : (resetWith z id s).Inv := by
  unfold resetWith
  split
  · next w hw =>
    obtain ⟨k, hk, hpow, hmin⟩ := checkSize_size hw
    obtain ⟨he, h1, hle, hmask⟩ := toInt_pow2 hk hpow
    have hmask' := toNat_of_nonneg (narrow (w.toInt - 1)) (by omega)
    refine ⟨hq, fun _ => ?_, nofun⟩
    exact {
      size := ⟨⟨k, hk, hpow, by simp only; omega⟩, hmin⟩
      ring := ⟨le_rfl, le_rfl, by simp [SeqLine.reset]; omega, by simp [SeqLine.reset]; unfold maxInt64; omega⟩
      gate := ⟨le_rfl, le_rfl, by simp [SeqLine.reset]; omega⟩
      rsv := nofun
      spaces := ⟨.nil, .nil, nofun, nofun⟩
      window := fun q h1 h2 => by simp [SeqLine.reset] at h1 h2; omega
      floors := ⟨le_rfl, le_rfl, le_rfl, le_rfl⟩
      pPhase := trivial
      cPhase := trivial }
  · exact ⟨hq, nofun, fun _ => ⟨rfl, rfl⟩⟩

/-- What a port that is IDLE answers to a command that is not legal there and then (30_encoding.md R86). -/
theorem exec_illegal (hp : s.phase = .idle) (hl : legal s.turn i s = false) : exec i s = respondIllegal s := by
  have hcommand : ∀ first body, command i first body s = respondIllegal s := fun first body => by
    simp [command, hp, hl]
  cases i <;> exact hcommand _ _

@[simp] theorem atTurn_port (s : State) (a : Port) (lag : Nat) (rest : List Turn) (b : Port) :
    (s.atTurn a lag rest).port b = s.port b := by
  cases b <;> rfl

/-- A port that answers a presented pair at once. -/
theorem present_respond_port (ht : s.turn = a) (pr : Presented) (rest : List Presented) (r : Response) :
    ((present pr rest a s).respond r).port a =
      { s.port a with
        cmd := pr.cmd, payload := pr.payload, script := rest, phase := .idle
        responses := (s.port a).responses ++ [r] } := by
  have hturn : (present pr rest a s).turn = a := by simp [present, ht]
  have := respond_port (present pr rest a s) r
  rw [hturn, present_port] at this
  exact this

/-- After a failed configuration every presented word is answered `ILLEGAL` (R86 case 1; 70_reset_and_hazards.md
R150). -/
theorem stepPort_failed (hcfg : s.cfgState = .cfgFail) (ht : s.turn = a) (hp : (s.port a).phase = .idle)
    {pr : Presented} {rest : List Presented} (hs : (s.port a).script = pr :: rest) :
    stepPort a s = respondIllegal (present pr rest a s) := by
  have hturn : (present pr rest a s).turn = a := by simp [present, ht]
  have hc : (present pr rest a s).cfgState = .cfgFail := by simpa [present] using hcfg
  have hidle : (present pr rest a s).phase = .idle := by rw [State.phase, hturn, present_port]; exact hp
  simp only [stepPort, hp, hs]
  split
  · exact exec_illegal hidle (by simp [legal, hc])
  · rfl

/-! ### The invariant over steps and runs -/

/-- While no configuration has succeeded both ports stay IDLE. -/
theorem stepPort_failed_idle (hcfg : s.cfgState = .cfgFail) (ht : s.turn = a)
    (hidle : ∀ b, (s.port b).phase = .idle) : ∃ t, stepPort a s = .next t ∧ ∀ b, (t.port b).phase = .idle := by
  cases hs : (s.port a).script with
  | nil => exact ⟨s, by simp [stepPort, hidle a, hs], hidle⟩
  | cons pr rest =>
    rw [stepPort_failed hcfg ht (hidle a) hs]
    refine ⟨_, rfl, fun b => ?_⟩
    have hturn : (present pr rest a s).turn = a := by simp [present, ht]
    by_cases hb : a = b
    · subst hb
      rw [present_respond_port ht]
    · rw [State.respond, hturn, setPort_port_ne _ _ _ _ hb, present, setPort_port_ne _ _ _ _ hb]
      exact hidle b

/-- A configured block: the scheduled agent's step from a sound state. -/
theorem State.Inv.stepPort_ready (h : s.Inv) (hc : s.cfgState = .ready) (a : Port) (lag : Nat) (rest : List Turn) :
    (s.atTurn a lag rest).SoundStep (stepPort a (s.atTurn a lag rest)) := by
  have hr := h.ready hc
  have hr' : (s.atTurn a lag rest).ReadyInv := { hr with }
  exact stepPort_sound hr' h.params rfl

/-- A block that is not configured: the scheduled agent's step from a sound state. -/
theorem State.Inv.stepPort_failed (h : s.Inv) (hc : s.cfgState = .cfgFail) (a : Port) (lag : Nat) (rest : List Turn) :
    ∃ t, stepPort a (s.atTurn a lag rest) = .next t ∧ ∀ b, (t.port b).phase = .idle := by
  obtain ⟨hp, hcp⟩ := h.failed hc
  refine stepPort_failed_idle hc rfl fun b => ?_
  cases b with
  | P => exact hp
  | C => exact hcp

theorem step_keeps_inv (h : s.Inv) (hstep : step s = .next t) : t.Inv := by
  rcases step_next hstep with ⟨-, rfl⟩ | ⟨a, lag, rest, -, hstep⟩ | ⟨z, id, rest, -, rfl⟩
  · exact h
  · have hk := (stepPort_keepsConfiguration a hstep).configuration
    simp only [State.configuration, Configuration.mk.injEq] at hk
    obtain ⟨-, -, -, hcfg, -, -, hparams, -⟩ := hk
    have hq : t.params.ok = true := by rw [hparams]; exact h.params
    cases hc : s.cfgState with
    | ready =>
      have hs := h.stepPort_ready hc a lag rest
      rw [hstep] at hs
      exact ⟨hq, fun _ => hs.ready, fun hf => absurd ((hcfg.trans hc).symm.trans hf) nofun⟩
    | cfgFail =>
      obtain ⟨t', ht', hidle⟩ := h.stepPort_failed hc a lag rest
      obtain rfl : t' = t := by simpa [ht'] using hstep
      exact ⟨hq, fun hr => absurd ((hcfg.trans hc).symm.trans hr) nofun, fun _ => ⟨hidle .P, hidle .C⟩⟩
  · exact resetWith_inv (s := { s with env := { s.env with sched := rest } }) h.params z id

end

/-- Settles O45: a step of an agent keeps the invariant by the soundness of its command (`exec_sound`), and a reset sets
it up anew. -/
theorem stepKeepsSoundness : Obligations.StepKeepsSoundness := fun _ _ => step_keeps_inv

/-- From a sound state a step never faults, and is refused only for what the spec says to refuse. -/
theorem step_sound {s : State} (h : s.Inv) :
    (∃ t, step s = .next t) ∨
      ∃ r, step s = .refused r ∧ (r = .illFormedPair ∨ r = .cursorOverflow ∨ r = .sourceBroken ∨ r = .sinkBroken) := by
  unfold step
  split
  · exact .inl ⟨_, rfl⟩
  · next a lag rest hsched =>
    cases hc : s.cfgState with
    | ready =>
      have hs := h.stepPort_ready hc a lag rest
      cases ho : stepPort a (s.atTurn a lag rest) with
      | next t => exact .inl ⟨t, rfl⟩
      | fault f =>
        rw [ho] at hs
        exact hs.elim
      | refused r =>
        rw [ho] at hs
        exact .inr ⟨r, rfl, hs⟩
    | cfgFail =>
      obtain ⟨t, ht, -⟩ := h.stepPort_failed hc a lag rest
      exact .inl ⟨t, ht⟩
  · exact .inl ⟨_, rfl⟩

/-- Settles O52, from what a sound state can answer (`step_sound`). -/
theorem soundStepsNeverFault : Obligations.SoundStepsNeverFault := by
  intro s h
  rcases step_sound h with ⟨t, ht⟩ | ⟨r, hr, hspec⟩
  · rw [ht]
    exact ⟨nofun, nofun⟩
  · rw [hr]
    exact ⟨nofun, fun r' hr' => Host.Outcome.refused.inj hr' ▸ hspec⟩

/-- Settles O53: `exec_sound` leaves only the refusals of `MayRefuse`, and the hypotheses exclude each of them. -/
theorem everyCommandStepCompletes : Obligations.EveryCommandStepCompletes := by
  intro i s h hcfg hfar hkept ha hp
  have hs := exec_sound (i := i) (h.ready hcfg) h.params (hp.imp And.left id)
  cases ho : exec i s with
  | next t => exact ⟨t, rfl⟩
  | fault f =>
    rw [ho] at hs
    exact hs.elim
  | refused r =>
    rw [ho] at hs
    cases r with
    | illFormedPair =>
      obtain ⟨hidle, hfits⟩ := hs
      rcases hp with ⟨-, -, hf⟩ | ⟨l, hl⟩
      · exact absurd (hfits.symm.trans hf) nofun
      · exact absurd (hidle.symm.trans hl) nofun
    | cursorOverflow => exact absurd hfar hs
    | sourceBroken => exact absurd hkept hs
    | sinkBroken => exact absurd hkept hs
    | portBusy => exact hs.elim
    | notModelled m => exact hs.elim

/-- Settles O49: the soundness of a step says where the cursors go, and no command clears `DONE`. -/
theorem cursorsNeverFall : Obligations.CursorsNeverFall := by
  intro s t h hcfg hreset hstep
  rcases step_next hstep with ⟨-, rfl⟩ | ⟨a, lag, rest, -, hstep⟩ | ⟨z, id, rest, hsched, -⟩
  · exact ⟨le_rfl, le_rfl, fun hd => hd⟩
  · have hs := h.stepPort_ready hcfg a lag rest
    rw [hstep] at hs
    exact ⟨hs.pseq, hs.cseq, (stepPort_keepsConfiguration a hstep).done⟩
  · simp [State.resetNext, hsched] at hreset

/-- Every reachable state is sound. -/
theorem Reachable.inv {s : State} (h : Reachable s) : s.Inv := by
  induction h with
  | boot q z id e ps cs hq => exact resetWith_inv hq z id
  | next s t _ hstep ih => exact step_keeps_inv ih hstep

/-- Settles O47: R36 is a part of the invariant. -/
theorem cursorsBoundedWhenReachable : Obligations.CursorsBoundedWhenReachable := by
  intro s h hcfg
  obtain ⟨-, hcp, hps, -⟩ := (h.inv.ready hcfg).ring
  unfold State.length
  omega

/-- Settles O48: R37 is a part of the invariant. -/
theorem gateBoundedWhenReachable : Obligations.GateBoundedWhenReachable := by
  intro s h hcfg
  obtain ⟨-, hcp, -⟩ := (h.inv.ready hcfg).ring
  obtain ⟨-, hgc, hgp⟩ := (h.inv.ready hcfg).gate
  omega

/-- State.reset is what a reset with the straps of Config makes of itself. -/
theorem reset_eq_resetWith : State.reset = resetWith Config.resetCfgSize Config.resetCfgId State.reset := by
  decide

/-- Settles O44: the state after reset is the outcome of a reset that succeeds. -/
theorem resetIsSound : Obligations.ResetIsSound := by
  refine ⟨?_, ?_, ?_⟩
  · rw [reset_eq_resetWith]
    exact resetWith_inv (by decide) _ _
  · exact ⟨nofun, nofun, nofun, nofun, nofun⟩
  · exact ⟨nofun, nofun⟩

/-- Settles O11, from the configuration every command keeps. -/
theorem commandsKeepConfiguration : Obligations.CommandsKeepConfiguration := by
  intro i s t h
  obtain ⟨hconf, hdone⟩ := exec_keepsConfiguration i h
  simp only [State.configuration, Configuration.mk.injEq] at hconf
  obtain ⟨hsize, hmask, hident, hcfg, herr, hhint, hparams, hpPad, hcGate, hcPad⟩ := hconf
  exact ⟨hsize, hmask, hident, hcfg, herr, hhint, hparams, hpPad, hcGate, hcPad, hdone⟩

/-- Settles O5, case by case of the schedule's head, the phase and the script. -/
theorem stepRunsTheDecodedCommand : Obligations.StepRunsTheDecodedCommand := by
  intro s
  refine ⟨fun a lag rest pr prs i hsched hp hs hd => ?_, fun a lag rest i l hsched hp => ?_,
    fun a lag rest hsched hp hs => ?_, fun z id rest hsched => ?_, fun hsched => ?_⟩
  all_goals simp only [step, hsched, stepPort, atTurn_port]
  · simp only [hp, hs, hd]
  · simp only [hp]
  · simp only [hp, hs]

/-- Settles O57: the successful branch of `resetWith`, read off field by field. -/
theorem resetDuringUse : Obligations.ResetDuringUse := by
  intro s z id rest w hsched hw
  obtain ⟨k, hk, hpow, -⟩ := checkSize_size hw
  obtain ⟨-, -, -, hmask⟩ := toInt_pow2 hk hpow
  refine ⟨_, by rw [step, hsched], ?_⟩
  rw [resetWith, show checkSize _ z = .size w from hw]
  exact ⟨rfl, rfl, rfl, rfl, rfl, rfl, rfl, rfl, rfl, rfl, rfl, hmask, rfl, rfl, rfl, rfl, rfl, rfl⟩

/-- Settles O58: the failing branch of `resetWith`, and R86 case 1 for the step after it. -/
theorem failedConfigurationAnswersIllegal : Obligations.FailedConfigurationAnswersIllegal := by
  refine ⟨fun s z id e h hf => ?_, fun s a lag rest pr prs hcfg hsched hp hs => ?_⟩
  · rw [resetWith, hf]
    exact ⟨rfl, rfl, rfl, rfl, rfl⟩
  · have hstep : step s = respondIllegal (present pr prs a (s.atTurn a lag rest)) := by
      simp only [step, hsched]
      exact stepPort_failed (s := s.atTurn a lag rest) hcfg rfl (by rwa [atTurn_port]) (by rwa [atTurn_port])
    have hport := present_respond_port (s := s.atTurn a lag rest) (a := a) rfl pr prs ⟨.illegal, 0, 0, []⟩
    refine ⟨_, hstep, ?_, ?_, ?_⟩
    · constructor <;> simp [present, State.atTurn]
    · rw [hport]
    · rw [hport, atTurn_port]

/-! ### What a step of a command leaves alone -/

/-- What only agent C's steps touch: its line, `CWAIT`, `TMP`, its latches and the sink (10_state.md R38). -/
def State.consumerSide (s : State) : SeqLine × Word × Memory × CLatches × List SinkAnswer × List (List Byte) :=
  (s.cseq, s.cwait, s.tmp, s.c, s.env.sink, s.env.delivered)

/-- What only agent P's steps touch: its line, the reservation, `BUF`, its latches and the source (R38). -/
def State.producerSide (s : State) : SeqLine × Reservation × Memory × PLatches × List SrcAnswer :=
  (s.pseq, s.rsv, s.buf, s.p, s.env.source)

/-- The commands whose operands stay in agent P's latches while they are in execution (R34). -/
def holdsP : Instr → Bool
  | .write _ => true
  | .publ _ => true
  | _ => false

/-- The commands whose operand stays in agent C's latches while they are in execution (R34). -/
def holdsC : Instr → Bool
  | .read _ => true
  | .peek _ => true
  | .commit _ => true
  | _ => false

/-- `u` is a state inside a step from `s` in which command `i`, in execution, is at label `l`: what such a step leaves
alone up to its response or its next label. -/
structure State.Frame (s : State) (i : Instr) (l : Label) (u : State) : Prop where
  running : ∃ k, s.phase = .run i k
  turn : u.turn = s.turn
  port : ∃ f, u.port s.turn = { s.port s.turn with floor := f }
  other : u.port (otherPort s.turn) = s.port (otherPort s.turn)
  sched : u.env.sched = s.env.sched
  size : u.size = s.size
  done : i ≠ .close → u.done = s.done
  consumerSide : s.turn = .P → u.consumerSide = s.consumerSide
  producerSide : s.turn = .C → u.producerSide = s.producerSide
  pCursor : l ≠ .W4 → l ≠ .U2 → u.pseq.cursor = s.pseq.cursor
  pGate : l ≠ .G2 → u.pseq.gate = s.pseq.gate
  rsv : l ≠ .V3 → l ≠ .U2 → u.rsv = s.rsv
  source : l ≠ .F2 → l ≠ .E1 → u.env.source = s.env.source
  cCursor : l ≠ .A4 → l ≠ .M3 → u.cseq.cursor = s.cseq.cursor
  cwait : l ≠ .K3 → u.cwait = s.cwait
  sink : l ≠ .T2 → u.env.sink = s.env.sink ∧ u.env.delivered = s.env.delivered
  pOperands : holdsP i = true → u.p.n = s.p.n ∧ u.p.data = s.p.data
  cOperand : holdsC i = true → u.c.n = s.c.n

/-- A step from `s` in which command `i` is at label `l` ends in `t`: in the command with no response, or IDLE with
one. -/
def State.Ends (s : State) (i : Instr) (l : Label) (t : State) : Prop :=
  ∃ u x, s.Frame i l u ∧ t = u.setPort s.turn x ∧ x.script = (s.port s.turn).script ∧
    x.payload = (s.port s.turn).payload ∧
    (((∃ k, x.phase = .run i k) ∧ x.responses = (s.port s.turn).responses) ∨
      (x.phase = .idle ∧ ∃ r, x.responses = (s.port s.turn).responses ++ [r]))

/-! #### The named updates inside a step -/

section
variable {s t u : State} {i : Instr} {l : Label}

theorem State.Frame.start (h : ∃ k, s.phase = .run i k) : s.Frame i l s where
  running := h
  turn := rfl
  port := ⟨_, rfl⟩
  other := rfl
  sched := rfl
  size := rfl
  done _ := rfl
  consumerSide _ := rfl
  producerSide _ := rfl
  pCursor _ _ := rfl
  pGate _ := rfl
  rsv _ _ := rfl
  source _ _ := rfl
  cCursor _ _ := rfl
  cwait _ := rfl
  sink _ := ⟨rfl, rfl⟩
  pOperands _ := ⟨rfl, rfl⟩
  cOperand _ := rfl

theorem State.Frame.setP (h : s.Frame i l u) (ht : s.turn = .P) {x : PLatches}
    (hx : holdsP i = true → x.n = u.p.n ∧ x.data = u.p.data) : s.Frame i l (u.setP x) :=
  { h with
    producerSide := fun hc => absurd (ht.symm.trans hc) nofun
    pOperands := fun hi => ⟨(hx hi).1.trans (h.pOperands hi).1, (hx hi).2.trans (h.pOperands hi).2⟩ }

theorem State.Frame.setC (h : s.Frame i l u) (ht : s.turn = .C) {x : CLatches}
    (hx : holdsC i = true → x.n = u.c.n) : s.Frame i l (u.setC x) :=
  { h with
    consumerSide := fun hp => absurd (ht.symm.trans hp) nofun
    cOperand := fun hi => (hx hi).trans (h.cOperand hi) }

theorem State.Frame.setFloor (h : s.Frame i l u) (f : Word) :
    s.Frame i l (u.setPort u.turn { u.port u.turn with floor := f }) := by
  obtain ⟨g, hg⟩ := h.port
  have ho := h.other
  rw [h.turn, hg]
  cases ht : s.turn with
  | P => exact { h with port := ⟨f, by rw [ht]; rfl⟩, other := by rw [ht] at ho ⊢; exact ho }
  | C => exact { h with port := ⟨f, by rw [ht]; rfl⟩, other := by rw [ht] at ho ⊢; exact ho }

theorem State.Frame.noteSample (h : s.Frame i l u) : s.Frame i l u.noteSample := h.setFloor _

theorem State.Frame.raiseFloor (h : s.Frame i l u) : s.Frame i l u.raiseFloor := h.setFloor _

theorem State.Frame.setGate (h : s.Frame i .G2 u) (ht : s.turn = .P) (v : Word) : s.Frame i .G2 (u.setGate v) :=
  { h with
    producerSide := fun hc => absurd (ht.symm.trans hc) nofun
    pGate := absurd rfl }

theorem State.Frame.storePseq (h : s.Frame i l u) (ht : s.turn = .P) (hl : l = .W4 ∨ l = .U2) (v : Word) :
    s.Frame i l (u.storePseq v) :=
  { h with
    producerSide := fun hc => absurd (ht.symm.trans hc) nofun
    pCursor := fun h1 h2 => (hl.elim h1 h2).elim }

theorem State.Frame.setRsv (h : s.Frame i l u) (ht : s.turn = .P) (hl : l = .V3 ∨ l = .U2) (r : Reservation) :
    s.Frame i l (u.setRsv r) :=
  { h with
    producerSide := fun hc => absurd (ht.symm.trans hc) nofun
    rsv := fun h1 h2 => (hl.elim h1 h2).elim }

theorem State.Frame.setBuf (h : s.Frame i l u) (ht : s.turn = .P) (m : Memory) : s.Frame i l (u.setBuf m) :=
  { h with producerSide := fun hc => absurd (ht.symm.trans hc) nofun }

theorem State.Frame.takeSource (h : s.Frame i l u) (ht : s.turn = .P) (hl : l = .F2 ∨ l = .E1)
    (rest : List SrcAnswer) : s.Frame i l (u.setEnv { u.env with source := rest }) :=
  { h with
    producerSide := fun hc => absurd (ht.symm.trans hc) nofun
    source := fun h1 h2 => (hl.elim h1 h2).elim }

theorem State.Frame.storeCseq (h : s.Frame i l u) (ht : s.turn = .C) (hl : l = .A4 ∨ l = .M3) (v : Word) :
    s.Frame i l (u.storeCseq v) :=
  { h with
    consumerSide := fun hp => absurd (ht.symm.trans hp) nofun
    cCursor := fun h1 h2 => (hl.elim h1 h2).elim }

theorem State.Frame.setTmp (h : s.Frame i l u) (ht : s.turn = .C) (m : Memory) : s.Frame i l (u.setTmp m) :=
  { h with consumerSide := fun hp => absurd (ht.symm.trans hp) nofun }

theorem State.Frame.bumpCwait (h : s.Frame i .K3 u) (ht : s.turn = .C) : s.Frame i .K3 u.bumpCwait :=
  { h with
    consumerSide := fun hp => absurd (ht.symm.trans hp) nofun
    cwait := absurd rfl }

theorem State.Frame.feedSink (h : s.Frame i .T2 u) (ht : s.turn = .C) (rest : List SinkAnswer)
    (views : List (List Byte)) : s.Frame i .T2 (u.setEnv { u.env with sink := rest, delivered := views }) :=
  { h with
    consumerSide := fun hp => absurd (ht.symm.trans hp) nofun
    sink := absurd rfl }

theorem State.Frame.setDone (h : s.Frame i l u) (hi : i = .close) : s.Frame i l u.setDone :=
  { h with done := absurd hi }

theorem State.Frame.goto (h : s.Frame i l u) (k : Label) : s.Ends i l (u.goto k) := by
  obtain ⟨f, hf⟩ := h.port
  obtain ⟨j, hj⟩ := h.running
  refine ⟨u, { u.port s.turn with phase := (u.port s.turn).phase.withLabel k }, h, by rw [State.goto, h.turn], ?_⟩
  rw [hf]
  exact ⟨rfl, rfl, .inl ⟨⟨k, congrArg (Phase.withLabel k) hj⟩, rfl⟩⟩

theorem State.Frame.respond (h : s.Frame i l u) (r : Response) : s.Ends i l (u.respond r) := by
  obtain ⟨f, hf⟩ := h.port
  refine ⟨u, { u.port s.turn with phase := .idle, responses := (u.port s.turn).responses ++ [r] }, h,
    by rw [State.respond, h.turn], ?_⟩
  rw [hf]
  exact ⟨rfl, rfl, .inr ⟨rfl, r, rfl⟩⟩

/-- A call that is outstanding holds the port (42_macro_commands.md R116, R117). -/
theorem State.Frame.hold (h : s.Frame i l u) : s.Ends i l u := by
  obtain ⟨f, hf⟩ := h.port
  obtain ⟨j, hj⟩ := h.running
  have hself : u = u.setPort s.turn (u.port s.turn) := by cases s.turn <;> rfl
  refine ⟨u, u.port s.turn, h, hself, ?_⟩
  rw [hf]
  exact ⟨rfl, rfl, .inl ⟨⟨j, hj⟩, rfl⟩⟩

end

/-! #### The steps -/

/-- Whatever `f` answers with, inside a step from `s` in which command `i` is at label `l`, ends that step. -/
def State.EndsBy (s : State) (i : Instr) (l : Label) (f : State → Out) : Prop :=
  ∀ ⦃u t⦄, s.Frame i l u → f u = .next t → s.Ends i l t

section
variable {s : State} {i : Instr} {l : Label}

theorem goto_ends (k : Label) : s.EndsBy i l (goto k) := fun _ _ hu h => goto_eq_next.1 h ▸ hu.goto k

theorem respond_ends (r : Response) : s.EndsBy i l (respond r) := fun _ _ hu h => respond_eq_next.1 h ▸ hu.respond r

section
variable (ht : s.turn = .P)
include ht

theorem gateStep_ends {onEos : State → Out} (he : s.EndsBy i l onEos) (after : Label) :
    s.EndsBy i l (gateStep after onEos l) := by
  intro u t hu h
  rcases gateStep_next h with
    ⟨-, -, -, rfl, rfl⟩ | ⟨rfl, -, rfl⟩ | ⟨-, -, rfl⟩ | ⟨-, -, h⟩ | ⟨-, -, rfl⟩ | ⟨-, rfl⟩
  · exact (hu.setP ht (by simp)).goto _
  · exact ((hu.noteSample.setP ht (by simp)).setGate ht _).goto _
  · exact (hu.noteSample.setP ht (by simp)).goto _
  · exact he hu h
  · exact hu.goto _
  · exact hu.goto _

theorem writeStep_ends {ret : Response → State → Out} (hr : ∀ r, s.EndsBy i l (ret r)) :
    s.EndsBy i l (writeStep ret l) := by
  intro u t hu h
  rcases writeStep_next h with ⟨-, e, -, h⟩ | ⟨-, -, rfl⟩ | ⟨-, m, -, rfl⟩ | ⟨rfl, h⟩ | h
  · exact hr _ hu h
  · exact hu.goto _
  · exact (hu.setBuf ht m).goto _
  · exact hr _ (hu.storePseq ht (.inl rfl) _) h
  · exact gateStep_ends ht (hr _) _ hu h

theorem rsveStep_ends {ret : Response → State → Out} (hr : ∀ r, s.EndsBy i l (ret r)) (hi : holdsP i = false) :
    s.EndsBy i l (rsveStep ret l) := by
  intro u t hu h
  rcases rsveStep_next h with ⟨-, rfl⟩ | ⟨rfl, h⟩ | h
  · exact (hu.setP ht (by simp [hi])).goto _
  · exact hr _ (hu.setRsv ht (.inl rfl) _) h
  · exact gateStep_ends ht (hr _) _ hu h

theorem publStep_ends {ret : Response → State → Out} (hr : ∀ r, s.EndsBy i l (ret r)) :
    s.EndsBy i l (publStep ret l) := by
  intro u t hu h
  rcases publStep_next h with ⟨-, -, m, -, rfl⟩ | ⟨rfl, h⟩
  · exact (hu.setBuf ht m).goto _
  · exact hr _ ((hu.storePseq ht (.inr rfl) _).setRsv ht (.inr rfl) _) h

theorem srcRead_ends (hi : holdsP i = false) (hl : l = .F2 ∨ l = .E1) (max : Int) (k : Label) :
    s.EndsBy i l (srcRead max k) := by
  intro u t hu h
  rcases srcRead_next h with ⟨-, rfl⟩ | ⟨a, rest, -, -, rfl⟩
  · exact hu.hold
  · exact ((hu.takeSource ht hl rest).setP ht (by simp [hi])).goto _

omit ht in
theorem sourceEnd_ends (again : Label) : s.EndsBy i l (sourceEnd again) := by
  intro u t hu h
  unfold sourceEnd at h
  split at h
  · exact goto_ends _ hu h
  · exact respond_ends _ hu h
  · exact respond_ends _ hu h

omit ht in
theorem readFromAfterRsve_ends (r : Response) : s.EndsBy i l (readFromAfterRsve r) := by
  intro u t hu h
  unfold readFromAfterRsve at h
  split at h
  · exact respond_ends _ hu h
  · exact goto_ends _ hu h

theorem readFromAfterPubl_ends (r : Response) : s.EndsBy i l (readFromAfterPubl r) :=
  fun _ _ hu h => goto_ends .F4 (hu.setP ht (by simp)) h

theorem readFromBAfterWrite_ends (r : Response) : s.EndsBy i l (readFromBAfterWrite r) := by
  intro u t hu h
  have hu' := hu.setP ht (x := { u.p with total := narrow (u.p.total.toInt + r.n.toInt) }) fun _ => ⟨rfl, rfl⟩
  unfold readFromBAfterWrite at h
  simp only at h
  split at h
  · exact goto_ends _ hu' h
  · exact respond_ends _ hu' h

theorem readFromStep_ends : s.EndsBy .readFrom l (readFromStep l) := by
  intro u t hu h
  have hrsve := rsveStep_ends (l := l) ht (readFromAfterRsve_ends (i := .readFrom)) rfl
  have hpubl := publStep_ends (l := l) ht (readFromAfterPubl_ends (i := .readFrom) ht)
  unfold readFromStep at h
  split at h
  · exact goto_ends _ (hu.setP ht nofun) h
  · exact srcRead_ends ht rfl (.inl rfl) _ _ hu h
  · exact sourceEnd_ends _ hu h
  · exact hrsve hu.raiseFloor h
  · exact hpubl hu.raiseFloor h
  · exact hpubl hu h
  · exact hrsve hu h

theorem readFromBStep_ends : s.EndsBy .readFromB l (readFromBStep l) := by
  intro u t hu h
  have hwrite := writeStep_ends (l := l) ht (readFromBAfterWrite_ends (i := .readFromB) ht)
  unfold readFromBStep at h
  split at h
  · exact goto_ends _ (hu.setP ht nofun) h
  · exact srcRead_ends ht rfl (.inr rfl) _ _ hu h
  · exact sourceEnd_ends _ hu h
  · exact hwrite hu.raiseFloor h
  · exact hwrite hu h

end

section
variable (ht : s.turn = .C)
include ht

theorem cwaitStep_ends {onEos : State → Out} (he : s.EndsBy i l onEos) (after : Label) :
    s.EndsBy i l (cwaitStep after onEos l) := by
  intro u t hu h
  rcases cwaitStep_next h with ⟨-, rfl⟩ | ⟨-, rfl⟩ | ⟨rfl, -, h⟩ | ⟨rfl, -, rfl⟩ | ⟨-, rfl⟩
  · exact (hu.setC ht (by simp)).goto _
  · exact (hu.noteSample.setC ht (by simp)).goto _
  · exact he (hu.bumpCwait ht) h
  · exact (hu.bumpCwait ht).goto _
  · exact (hu.setC ht (by simp)).goto _

section
variable {ret : Response → State → Out} (hr : ∀ r, s.EndsBy i l (ret r))
include hr

theorem readStep_ends : s.EndsBy i l (readStep ret l) := by
  intro u t hu h
  rcases readStep_next h with ⟨-, -, h⟩ | ⟨-, -, rfl⟩ | ⟨-, m, out, -, -, rfl⟩ | ⟨rfl, h⟩ | h
  · exact hr _ hu h
  · exact hu.goto _
  · exact (hu.setC ht (by simp)).goto _
  · exact hr _ (hu.storeCseq ht (.inl rfl) _) h
  · exact cwaitStep_ends ht (hr _) _ hu h

theorem peekStep_ends : s.EndsBy i l (peekStep ret l) := by
  intro u t hu h
  rcases peekStep_next h with ⟨-, e, -, h⟩ | ⟨-, -, rfl⟩ | ⟨-, m, start, s', -, -, rfl, h⟩ | h
  · exact hr _ hu h
  · exact hu.goto _
  · have hu' := hu.setC ht (x := { u.c with m := narrow m, start := narrow start }) fun _ => rfl
    rcases h with ⟨-, h⟩ | ⟨-, -, view, -, h⟩ | ⟨-, -, view, tmp, -, h⟩
    · exact hr _ hu' h
    · exact hr _ hu' h
    · exact hr _ (hu'.setTmp ht tmp) h
  · exact cwaitStep_ends ht (hr _) _ hu h

theorem commitStep_ends : s.EndsBy i l (commitStep ret l) := by
  intro u t hu h
  rcases commitStep_next h with ⟨-, e, -, h⟩ | ⟨-, -, rfl⟩ | ⟨-, s', rfl, ⟨-, rfl⟩ | ⟨-, h⟩⟩ | ⟨rfl, h⟩
  · exact hr _ hu h
  · exact hu.goto _
  · exact (hu.noteSample.setC ht (by simp)).goto _
  · exact hr _ (hu.noteSample.setC ht (by simp)) h
  · exact hr _ (hu.storeCseq ht (.inr rfl) _) h

end

theorem sinkWrite_ends (k : Label) : s.EndsBy i .T2 (sinkWrite k) := by
  intro u t hu h
  rcases sinkWrite_next h with ⟨-, rfl⟩ | ⟨a, rest, -, -, rfl⟩
  · exact hu.hold
  · exact ((hu.feedSink ht rest _).setC ht (by simp)).goto _

theorem startPeek_ends : s.EndsBy .writeTo l startPeek :=
  fun _ _ hu h => goto_ends .B1 (hu.setC ht nofun) h

theorem startCommit_ends (k : Word) : s.EndsBy .writeTo l (startCommit k) :=
  fun _ _ hu h => goto_ends .M1 (hu.setC ht nofun) h

theorem writeToAfterPeek_ends (r : Response) : s.EndsBy .writeTo l (writeToAfterPeek r) := by
  intro u t hu h
  unfold writeToAfterPeek at h
  split at h
  · exact goto_ends _ (hu.setC ht nofun) h
  · exact respond_ends _ hu h

theorem writeToAfterSink_ends : s.EndsBy .writeTo l writeToAfterSink := by
  intro u t hu h
  unfold writeToAfterSink at h
  split at h
  · exact startCommit_ends ht _ hu h
  · simp only at h
    split at h
    · exact startCommit_ends ht _ (hu.setC ht nofun) h
    · exact respond_ends _ (hu.setC ht nofun) h

theorem writeToAfterCommit_ends (r : Response) : s.EndsBy .writeTo l (writeToAfterCommit r) := by
  intro u t hu h
  unfold writeToAfterCommit at h
  split at h
  · exact startPeek_ends ht (hu.setC ht nofun) h
  · exact respond_ends _ hu h

theorem writeToStep_ends : s.EndsBy .writeTo l (writeToStep l) := by
  intro u t hu h
  have hpeek := peekStep_ends (l := l) ht (writeToAfterPeek_ends ht)
  have hcommit := commitStep_ends (l := l) ht (writeToAfterCommit_ends ht)
  unfold writeToStep at h
  split at h
  · exact startPeek_ends ht (hu.setC ht nofun) h
  · exact sinkWrite_ends ht _ hu h
  · exact writeToAfterSink_ends ht hu h
  · exact hpeek hu.raiseFloor h
  · exact hcommit hu.raiseFloor h
  · exact hcommit hu h
  · exact hcommit hu h
  · exact hpeek hu h

end

theorem lenStep_ends : s.EndsBy .len l (lenStep l) := by
  intro u t hu h
  have hturn := hu.turn
  rcases lenStep_next h with ⟨-, ht, rfl⟩ | ⟨-, ht, rfl⟩ | ⟨-, ht, rfl⟩ | ⟨-, ht, rfl⟩
  · exact (hu.setP (hturn.symm.trans ht) nofun).goto _
  · exact (hu.setC (hturn.symm.trans ht) nofun).goto _
  · exact (hu.noteSample.setP (hturn.symm.trans ht) nofun).respond _
  · exact (hu.noteSample.setC (hturn.symm.trans ht) nofun).respond _

theorem identStep_ends : s.EndsBy i l (identStep l) := by
  intro u t hu h
  obtain ⟨-, rfl⟩ := identStep_next h
  exact hu.respond _

theorem closeStep_ends : s.EndsBy .close l (closeStep l) := by
  intro u t hu h
  obtain ⟨-, rfl⟩ := closeStep_next h
  exact (hu.setDone rfl).respond _

end

/-! #### Every command -/

/-- The step a command takes at its acceptance (10_state.md R33). -/
def firstLabel : Instr → Label
  | .write _ => .W1
  | .rsve => .V1
  | .publ _ => .U1
  | .read _ => .A1
  | .peek _ => .B1
  | .commit _ => .M1
  | .readFrom => .F0
  | .readFromB => .E0
  | .writeTo => .T0
  | .close => .C1
  | .len => .L1
  | .ident => .I1

/-- Command `i` takes its step at label `l` from `v`: `s` itself in the middle of the command, and the state its
acceptance leads to when the port is IDLE. -/
structure State.Enters (s : State) (i : Instr) (l : Label) (v : State) : Prop where
  start : (s.phase = .run i l ∧ v = s) ∨ (s.phase = .idle ∧ l = firstLabel i ∧ v = accept i l s)
  turn : v.turn = s.turn
  port : ∃ f, v.port s.turn = { s.port s.turn with phase := .run i l, floor := f }
  other : v.port (otherPort s.turn) = s.port (otherPort s.turn)
  env : v.env = s.env
  size : v.size = s.size
  done : v.done = s.done
  pseq : v.pseq = s.pseq
  cseq : v.cseq = s.cseq
  cwait : v.cwait = s.cwait
  rsv : v.rsv = s.rsv
  buf : v.buf = s.buf
  tmp : v.tmp = s.tmp
  p : isProducer i = false → v.p = s.p
  c : isConsumer i = false → v.c = s.c

section
variable {s t u v : State} {i : Instr} {l : Label}

theorem State.Enters.middle (h : s.phase = .run i l) : s.Enters i l s where
  start := .inl ⟨h, rfl⟩
  turn := rfl
  port := ⟨_, by rw [← h]; rfl⟩
  other := rfl
  env := rfl
  size := rfl
  done := rfl
  pseq := rfl
  cseq := rfl
  cwait := rfl
  rsv := rfl
  buf := rfl
  tmp := rfl
  p _ := rfl
  c _ := rfl

theorem otherPort_ne (a : Port) : a ≠ otherPort a := by
  cases a <;> decide

theorem setP_port (s : State) (x : PLatches) (a : Port) : (s.setP x).port a = s.port a := by
  cases a <;> rfl

theorem setC_port (s : State) (x : CLatches) (a : Port) : (s.setC x).port a = s.port a := by
  cases a <;> rfl

/-- Latching operands writes the latches of the agent that accepts the command, and nothing else (R34). -/
theorem latchOperands_eq (i : Instr) (s : State) :
    ∃ p c, latchOperands i s = (s.setP p).setC c ∧
      (isProducer i = false → p = s.p) ∧ (isConsumer i = false → c = s.c) := by
  refine ⟨(latchOperands i s).p, (latchOperands i s).c, by cases i <;> rfl, fun hi => ?_, fun hi => ?_⟩
  · cases i with
    | write _ | publ _ => cases hi
    | _ => rfl
  · cases i with
    | read _ | peek _ | commit _ => cases hi
    | _ => rfl

theorem State.Enters.accept (h : s.phase = .idle) : s.Enters i (firstLabel i) (accept i (firstLabel i) s) := by
  obtain ⟨p, c, he, hp, hc⟩ := latchOperands_eq i
    (s.setPort s.turn { s.acceptedPort with phase := .run i (firstLabel i) })
  rw [setPort_p] at hp
  rw [setPort_c] at hc
  rw [← Machine.accept] at he
  exact {
    start := .inr ⟨h, rfl, rfl⟩
    turn := by simp [he]
    port := ⟨_, by rw [he, setC_port, setP_port, port_setPort]; rfl⟩
    other := by rw [he, setC_port, setP_port, setPort_port_ne _ _ _ _ (otherPort_ne _)]
    env := by simp [he]
    size := by simp
    done := by simp
    pseq := by simp [he]
    cseq := by simp [he]
    cwait := by simp [he]
    rsv := by simp
    buf := by simp [he]
    tmp := by simp [he]
    p := fun hi => by rw [he, setC_p, setP_p, hp hi]
    c := fun hi => by rw [he, setC_c, hc hi] }

theorem State.Enters.running (h : s.Enters i l v) : ∃ k, v.phase = .run i k := by
  obtain ⟨f, hf⟩ := h.port
  exact ⟨l, by rw [State.phase, h.turn, hf]⟩

theorem firstLabel_mem (i : Instr) :
    firstLabel i ∈ [Label.W1, .V1, .U1, .A1, .B1, .M1, .F0, .E0, .T0, .C1, .L1, .I1] := by
  cases i <;> simp [firstLabel]

/-- A label no command starts at is the one the phase names. -/
theorem State.Enters.label_ne (h : s.Enters i l v) {k : Label}
    (hk : k ∉ [Label.W1, .V1, .U1, .A1, .B1, .M1, .F0, .E0, .T0, .C1, .L1, .I1]) (hs : ∀ j, s.phase ≠ .run j k) :
    l ≠ k := by
  rintro rfl
  obtain ⟨hp, -⟩ | ⟨-, hl, -⟩ := h.start
  · exact hs i hp
  · exact hk (hl ▸ firstLabel_mem i)

/-- What one step of a command can do: answer `ILLEGAL`, or end as its steps do. -/
theorem command_ends {body : Label → State → Out}
    (hb : ∀ (v : State) l, accepts v.turn i = true → v.EndsBy i l (body l))
    (h : command i (firstLabel i) body s = .next t) :
    (s.phase = .idle ∧ t = s.respond ⟨.illegal, 0, 0, []⟩) ∨
      ∃ l v, s.Enters i l v ∧ accepts s.turn i = true ∧ v.Ends i l t := by
  have hends : ∀ {l v}, s.Enters i l v → accepts s.turn i = true → body l v = .next t → v.Ends i l t :=
    fun {l v} hv ha hbody => hb v l (by rw [hv.turn]; exact ha) (.start hv.running) hbody
  rcases command_next h with ⟨hp, hl, -, hbody⟩ | ⟨hp, -, rfl⟩ | ⟨l, hp, ha, hbody⟩
  · have ha := (legal_eq_true.1 hl).2.1
    exact .inr ⟨_, _, .accept hp, ha, hends (.accept hp) ha hbody⟩
  · exact .inl ⟨hp, rfl⟩
  · exact .inr ⟨l, s, .middle hp, ha, hends (.middle hp) ha hbody⟩

theorem exec_ends (h : exec i s = .next t) :
    (s.phase = .idle ∧ t = s.respond ⟨.illegal, 0, 0, []⟩) ∨
      ∃ l v, s.Enters i l v ∧ accepts s.turn i = true ∧ v.Ends i l t := by
  cases i with
  | write n => exact command_ends (fun v l ha => writeStep_ends (accepts_producer rfl ha) respond_ends) h
  | rsve => exact command_ends (fun v l ha => rsveStep_ends (accepts_producer rfl ha) respond_ends rfl) h
  | publ k => exact command_ends (fun v l ha => publStep_ends (accepts_producer rfl ha) respond_ends) h
  | read cap => exact command_ends (fun v l ha => readStep_ends (accepts_consumer rfl ha) respond_ends) h
  | peek n => exact command_ends (fun v l ha => peekStep_ends (accepts_consumer rfl ha) respond_ends) h
  | commit n => exact command_ends (fun v l ha => commitStep_ends (accepts_consumer rfl ha) respond_ends) h
  | readFrom => exact command_ends (fun v l ha => readFromStep_ends (accepts_producer rfl ha)) h
  | readFromB => exact command_ends (fun v l ha => readFromBStep_ends (accepts_producer rfl ha)) h
  | writeTo => exact command_ends (fun v l ha => writeToStep_ends (accepts_consumer rfl ha)) h
  | close => exact command_ends (fun v l _ => closeStep_ends) h
  | len => exact command_ends (fun v l _ => lenStep_ends) h
  | ident => exact command_ends (fun v l _ => identStep_ends) h

/-- Settles O6: each command's step ends with a label or with a response (`exec_ends`). -/
theorem everyCommandAnswersOnce : Obligations.EveryCommandAnswersOnce := by
  intro i s t h
  rcases exec_ends h with ⟨hp, rfl⟩ | ⟨l, v, hv, -, u, x, hu, rfl, -, -, hx⟩
  · right
    rw [State.phase, respond_turn, respond_port]
    exact ⟨rfl, _, rfl⟩
  · obtain ⟨f, hf⟩ := hv.port
    rw [hv.turn, hf] at hx
    rw [State.phase, setPort_turn, hu.turn, port_setPort]
    exact hx

end

/-! #### The frame of a command -/

/-- What a step of command `i` from `s` to `t` leaves alone, by the phase it is taken at (10_state.md R38). -/
structure State.CommandFrame (s : State) (i : Instr) (t : State) : Prop where
  turn : t.turn = s.turn
  script : (t.port s.turn).script = (s.port s.turn).script
  other : t.port (otherPort s.turn) = s.port (otherPort s.turn)
  sched : t.env.sched = s.env.sched
  done : i ≠ .close → t.done = s.done
  consumerSide : isProducer i = true ∨ s.turn = .P → t.consumerSide = s.consumerSide
  producerSide : isConsumer i = true ∨ s.turn = .C → t.producerSide = s.producerSide
  pCursor : (∀ j, s.phase ≠ .run j .W4 ∧ s.phase ≠ .run j .U2) → t.pseq.cursor = s.pseq.cursor
  pGate : (∀ j, s.phase ≠ .run j .G2) → t.pseq.gate = s.pseq.gate
  rsv : (∀ j, s.phase ≠ .run j .V3 ∧ s.phase ≠ .run j .U2) → t.rsv = s.rsv
  source : (∀ j, s.phase ≠ .run j .F2 ∧ s.phase ≠ .run j .E1) → t.env.source = s.env.source
  cCursor : (∀ j, s.phase ≠ .run j .A4 ∧ s.phase ≠ .run j .M3) → t.cseq.cursor = s.cseq.cursor
  cwait : (∀ j, s.phase ≠ .run j .K3) → t.cwait = s.cwait
  sink : (∀ j, s.phase ≠ .run j .T2) → t.env.sink = s.env.sink ∧ t.env.delivered = s.env.delivered

section
variable {s t u v : State} {i : Instr} {l : Label}

theorem State.CommandFrame.refl (s : State) (i : Instr) : s.CommandFrame i s where
  turn := rfl
  script := rfl
  other := rfl
  sched := rfl
  done _ := rfl
  consumerSide _ := rfl
  producerSide _ := rfl
  pCursor _ := rfl
  pGate _ := rfl
  rsv _ := rfl
  source _ := rfl
  cCursor _ := rfl
  cwait _ := rfl
  sink _ := ⟨rfl, rfl⟩

/-- What the end of a step does to the port of its agent. -/
theorem State.CommandFrame.setPort (h : s.CommandFrame i u) {x : PortState} (hx : x.script = (s.port s.turn).script) :
    s.CommandFrame i (u.setPort s.turn x) := by
  have ho := h.other
  cases ht : s.turn with
  | P =>
    rw [ht] at ho hx
    exact { h with script := by rw [ht]; exact hx, other := by rw [ht]; exact ho }
  | C =>
    rw [ht] at ho hx
    exact { h with script := by rw [ht]; exact hx, other := by rw [ht]; exact ho }

theorem not_consumer_of_accepts (ha : accepts .P i = true) : isConsumer i = false := by
  by_contra hi
  exact absurd (accepts_consumer (by simpa using hi) ha) nofun

theorem not_producer_of_accepts (ha : accepts .C i = true) : isProducer i = false := by
  by_contra hi
  exact absurd (accepts_producer (by simpa using hi) ha) nofun

theorem State.Enters.frame (hv : s.Enters i l v) (ha : accepts s.turn i = true) (hu : v.Frame i l u) :
    s.CommandFrame i u where
  turn := hu.turn.trans hv.turn
  script := by
    obtain ⟨f, hf⟩ := hu.port
    obtain ⟨g, hg⟩ := hv.port
    rw [hv.turn] at hf
    rw [hf, hg]
  other := by
    have ho := hu.other
    rwa [hv.turn, hv.other] at ho
  sched := by rw [hu.sched, hv.env]
  done hi := by rw [hu.done hi, hv.done]
  consumerSide h := by
    have ht : s.turn = .P := h.elim (fun hi => accepts_producer hi ha) id
    rw [hu.consumerSide (hv.turn.trans ht)]
    simp only [State.consumerSide, hv.cseq, hv.cwait, hv.tmp, hv.c (not_consumer_of_accepts (ht ▸ ha)), hv.env]
  producerSide h := by
    have ht : s.turn = .C := h.elim (fun hi => accepts_consumer hi ha) id
    rw [hu.producerSide (hv.turn.trans ht)]
    simp only [State.producerSide, hv.pseq, hv.rsv, hv.buf, hv.p (not_producer_of_accepts (ht ▸ ha)), hv.env]
  pCursor h := by
    rw [hu.pCursor (hv.label_ne (by decide) fun j => (h j).1) (hv.label_ne (by decide) fun j => (h j).2), hv.pseq]
  pGate h := by rw [hu.pGate (hv.label_ne (by decide) h), hv.pseq]
  rsv h := by
    rw [hu.rsv (hv.label_ne (by decide) fun j => (h j).1) (hv.label_ne (by decide) fun j => (h j).2), hv.rsv]
  source h := by
    rw [hu.source (hv.label_ne (by decide) fun j => (h j).1) (hv.label_ne (by decide) fun j => (h j).2), hv.env]
  cCursor h := by
    rw [hu.cCursor (hv.label_ne (by decide) fun j => (h j).1) (hv.label_ne (by decide) fun j => (h j).2), hv.cseq]
  cwait h := by rw [hu.cwait (hv.label_ne (by decide) h), hv.cwait]
  sink h := by
    rw [← hv.env]
    exact hu.sink (hv.label_ne (by decide) h)

theorem exec_frame (h : exec i s = .next t) : s.CommandFrame i t := by
  rcases exec_ends h with ⟨-, rfl⟩ | ⟨l, v, hv, ha, u, x, hu, rfl, hscript, -, -⟩
  · exact (State.CommandFrame.refl s i).setPort rfl
  · obtain ⟨g, hg⟩ := hv.port
    rw [hv.turn]
    rw [hv.turn, hg] at hscript
    exact (hv.frame ha hu).setPort hscript

/-- Settles O40, read off the frame of a command. -/
theorem producerFrame : Obligations.ProducerFrame := by
  intro i s t hi h
  have hf := exec_frame h
  have hside := hf.consumerSide (.inl hi)
  simp only [State.consumerSide, Prod.mk.injEq] at hside
  obtain ⟨hcseq, hcwait, htmp, hc, hsink, hdel⟩ := hside
  have hclose : i ≠ .close := by
    rintro rfl
    cases hi
  exact ⟨hcseq, hf.done hclose, hcwait, htmp, hc, hf.other, hf.turn, hf.sched, hsink, hdel,
    by rw [hf.turn]; exact hf.script, hf.pCursor, hf.pGate, hf.rsv, hf.source⟩

/-- At K3 the wait counts one (41_consumer_commands.md R107). -/
theorem cwaitStep_K3_cwait {after : Label} {onEos : State → Out}
    (he : ∀ u t, onEos u = .next t → t.cwait = u.cwait) (h : cwaitStep after onEos .K3 s = .next t) :
    t.cwait = s.cwait + 1 := by
  unfold cwaitStep at h
  simp only at h
  split at h
  · exact he _ _ h
  · obtain rfl := goto_eq_next.1 h
    rw [goto_cwait, bumpCwait_cwait]

theorem respond_keeps_cwait (r : Response) (u t : State) (h : respond r u = .next t) : t.cwait = u.cwait := by
  obtain rfl := respond_eq_next.1 h
  exact respond_cwait u r

/-- In the middle of a command a step is the one its phase names. -/
theorem command_middle {j : Instr} {first : Label} {body : Label → State → Out} (hp : s.phase = .run j l)
    (h : command i first body s = .next t) : body l s = .next t := by
  rcases command_next h with ⟨hp', -⟩ | ⟨hp', -⟩ | ⟨k, hp', -, hb⟩
  · cases hp.symm.trans hp'
  · cases hp.symm.trans hp'
  · cases hp.symm.trans hp'
    exact hb

/-- A consumer command at K3 counts one in `CWAIT`. -/
theorem exec_K3_cwait {j : Instr} (hi : isConsumer i = true) (hp : s.phase = .run j .K3) (h : exec i s = .next t) :
    t.cwait = s.cwait + 1 := by
  have heos := respond_keeps_cwait ⟨.eos, 0, 0, []⟩
  cases i with
  | read cap => exact cwaitStep_K3_cwait (after := .A3) heos (command_middle (body := readStep respond) hp h)
  | peek n => exact cwaitStep_K3_cwait (after := .B3) heos (command_middle (body := peekStep respond) hp h)
  | commit n => cases command_middle (body := commitStep respond) hp h
  | writeTo =>
    exact cwaitStep_K3_cwait (after := .B3) (onEos := writeToAfterPeek ⟨.eos, 0, 0, []⟩)
      (fun u => respond_keeps_cwait ⟨.eos, u.c.total, 0, []⟩ u) (command_middle (body := writeToStep) hp h)
  | _ => cases hi

/-- Settles O41, read off the frame of a command; that K3 counts exactly one is `exec_K3_cwait`. -/
theorem consumerFrame : Obligations.ConsumerFrame := by
  intro i s t hi h
  have hf := exec_frame h
  have hside := hf.producerSide (.inl hi)
  simp only [State.producerSide, Prod.mk.injEq] at hside
  obtain ⟨hpseq, hrsv, hbuf, hp, hsource⟩ := hside
  have hclose : i ≠ .close := by
    rintro rfl
    cases hi
  exact ⟨hpseq, hf.done hclose, hrsv, hbuf, hp, hf.other, hf.turn, hf.sched, hsource,
    by rw [hf.turn]; exact hf.script, hf.cCursor, hf.cwait, fun j hj => exec_K3_cwait hi hj h, hf.sink⟩

end

/-! ### Operands stay latched -/

/-- What `OperandInv` says of agent P, in one form for WRITE and PUBL. -/
def State.POperands (s : State) : Prop :=
  ∀ i l, s.pPort.phase = .run i l → holdsP i = true →
    s.p.n = i.count ∧ s.p.data = takenPayload s.size i.count s.pPort.payload

/-- What `OperandInv` says of agent C, in one form for READ, PEEK and COMMIT. -/
def State.COperands (s : State) : Prop :=
  ∀ i l, s.cPort.phase = .run i l → holdsC i = true → s.c.n = i.count

theorem operandInv_iff {s : State} : s.OperandInv ↔ s.POperands ∧ s.COperands := by
  constructor
  · rintro ⟨hwrite, hpubl, hread, hpeek, hcommit⟩
    refine ⟨fun i l hp hi => ?_, fun i l hp hi => ?_⟩
    · cases i with
      | write n => exact hwrite n l hp
      | publ k => exact hpubl k l hp
      | _ => cases hi
    · cases i with
      | read n => exact hread n l hp
      | peek n => exact hpeek n l hp
      | commit n => exact hcommit n l hp
      | _ => cases hi
  · rintro ⟨hP, hC⟩
    exact ⟨fun n l hp => hP _ l hp rfl, fun k l hp => hP _ l hp rfl, fun n l hp => hC _ l hp rfl,
      fun n l hp => hC _ l hp rfl, fun n l hp => hC _ l hp rfl⟩

section
variable {s t u v : State} {i : Instr} {l : Label}

theorem pOperands_of_idle (hp : s.pPort.phase = .idle) : s.POperands := fun _ _ h => nomatch hp.symm.trans h

theorem cOperands_of_idle (hc : s.cPort.phase = .idle) : s.COperands := fun _ _ h => nomatch hc.symm.trans h

/-- A response ends the command and with it the duty to keep its operands. -/
theorem respond_operandInv (hs : s.OperandInv) (r : Response) : (s.respond r).OperandInv := by
  obtain ⟨hP, hC⟩ := operandInv_iff.1 hs
  rw [State.respond, operandInv_iff]
  generalize s.turn = a
  cases a with
  | P => exact ⟨pOperands_of_idle rfl, hC⟩
  | C => exact ⟨hP, cOperands_of_idle rfl⟩

theorem State.Enters.phase (hv : s.Enters i l v) : v.phase = .run i l := by
  obtain ⟨f, hf⟩ := hv.port
  rw [State.phase, hv.turn, hf]

/-- Acceptance latches the operands of WRITE and PUBL (10_state.md R34). -/
theorem State.Enters.pOperands (hv : s.Enters i l v) (ht : s.turn = .P) (hs : s.POperands) : v.POperands := by
  obtain ⟨-, rfl⟩ | ⟨-, -, rfl⟩ := hv.start
  · exact hs
  obtain ⟨f, hf⟩ := hv.port
  rw [ht, port_P, port_P] at hf
  intro j k hp hj
  rw [hf] at hp ⊢
  obtain ⟨rfl, rfl⟩ := Phase.run.inj hp
  rw [accept_size]
  cases i with
  | write n => rw [accept_write ht]; exact ⟨rfl, rfl⟩
  | publ n => rw [accept_publ ht]; exact ⟨rfl, rfl⟩
  | _ => cases hj

/-- Acceptance latches the operand of READ, PEEK and COMMIT (R34). -/
theorem State.Enters.cOperands (hv : s.Enters i l v) (ht : s.turn = .C) (hs : s.COperands) : v.COperands := by
  obtain ⟨-, rfl⟩ | ⟨-, -, rfl⟩ := hv.start
  · exact hs
  obtain ⟨f, hf⟩ := hv.port
  rw [ht, port_C, port_C] at hf
  intro j k hp hj
  rw [hf] at hp
  obtain ⟨rfl, rfl⟩ := Phase.run.inj hp
  cases i with
  | read n => rw [accept_read]; rfl
  | peek n => rw [accept_peek]; rfl
  | commit n => rw [accept_commit]; rfl
  | _ => cases hj

/-- Agent P's own step keeps the operands of its command. -/
theorem State.Ends.pOperands (h : v.Ends i l t) (ht : v.turn = .P) (hp : v.phase = .run i l) (hv : v.POperands) :
    t.POperands := by
  obtain ⟨u, x, hu, rfl, -, hpayload, hx⟩ := h
  rw [State.phase, ht, port_P] at hp
  rw [ht] at hpayload ⊢
  intro j k hj hjp
  rw [setPort_P_pPort] at hj ⊢
  obtain ⟨⟨m, hm⟩, -⟩ | ⟨hm, -⟩ := hx
  · obtain ⟨rfl, rfl⟩ := Phase.run.inj (hm.symm.trans hj)
    obtain ⟨hn, hd⟩ := hu.pOperands hjp
    rw [setPort_p, setPort_size, hn, hd, hu.size, hpayload]
    exact hv _ l hp hjp
  · cases hm.symm.trans hj

/-- Agent C's own step keeps the operand of its command. -/
theorem State.Ends.cOperands (h : v.Ends i l t) (ht : v.turn = .C) (hp : v.phase = .run i l) (hv : v.COperands) :
    t.COperands := by
  obtain ⟨u, x, hu, rfl, -, -, hx⟩ := h
  rw [State.phase, ht, port_C] at hp
  rw [ht]
  intro j k hj hjc
  rw [setPort_C_cPort] at hj
  obtain ⟨⟨m, hm⟩, -⟩ | ⟨hm, -⟩ := hx
  · obtain ⟨rfl, rfl⟩ := Phase.run.inj (hm.symm.trans hj)
    rw [setPort_c, hu.cOperand hjc]
    exact hv _ l hp hjc
  · cases hm.symm.trans hj

theorem exec_keeps_operandInv (hs : s.OperandInv) (h : exec i s = .next t) : t.OperandInv := by
  have hf := exec_frame h
  have ho := hf.other
  have hsize := congrArg Configuration.size (exec_keepsConfiguration i h).configuration
  change t.size = s.size at hsize
  rcases exec_ends h with ⟨-, rfl⟩ | ⟨l, v, hv, -, he⟩
  · exact respond_operandInv hs _
  obtain ⟨hP, hC⟩ := operandInv_iff.1 hs
  refine operandInv_iff.2 ?_
  cases ht : s.turn with
  | P =>
    refine ⟨he.pOperands (hv.turn.trans ht) hv.phase (hv.pOperands ht hP), ?_⟩
    have hc := hf.consumerSide (.inr ht)
    simp only [State.consumerSide, Prod.mk.injEq] at hc
    obtain ⟨-, -, -, hc, -⟩ := hc
    rw [ht] at ho
    change t.cPort = s.cPort at ho
    simpa only [State.COperands, hc, ho] using hC
  | C =>
    refine ⟨?_, he.cOperands (hv.turn.trans ht) hv.phase (hv.cOperands ht hC)⟩
    have hp := hf.producerSide (.inr ht)
    simp only [State.producerSide, Prod.mk.injEq] at hp
    obtain ⟨-, -, -, hp, -⟩ := hp
    rw [ht] at ho
    change t.pPort = s.pPort at ho
    simpa only [State.POperands, hp, ho, hsize] using hP

theorem present_operandInv {a : Port} {pr : Presented} {rest : List Presented} (hs : s.OperandInv)
    (hp : (s.port a).phase = .idle) : (present pr rest a s).OperandInv := by
  obtain ⟨hP, hC⟩ := operandInv_iff.1 hs
  refine operandInv_iff.2 ?_
  cases a with
  | P => exact ⟨pOperands_of_idle hp, hC⟩
  | C => exact ⟨hP, hC⟩

theorem resetWith_phase (z id : Word) (s : State) :
    (resetWith z id s).pPort.phase = .idle ∧ (resetWith z id s).cPort.phase = .idle := by
  unfold resetWith
  split
  · exact ⟨rfl, rfl⟩
  · exact ⟨rfl, rfl⟩

/-- Settles O46: acceptance latches the operands, no step of such a command touches them, and the other agent's steps
touch neither its latches nor its port. -/
theorem operandsStayLatched : Obligations.OperandsStayLatched := by
  intro s t hs h
  rcases step_next h with ⟨-, rfl⟩ | ⟨a, lag, rest, -, h⟩ | ⟨z, id, rest, -, rfl⟩
  · exact hs
  · have hs' : (s.atTurn a lag rest).OperandInv := hs
    rcases stepPort_next h with ⟨i, l, -, h⟩ | ⟨-, -, rfl⟩ | ⟨hp, pr, rest', -, ⟨i, -, h⟩ | ⟨-, rfl⟩⟩
    · exact exec_keeps_operandInv hs' h
    · exact hs'
    · exact exec_keeps_operandInv (present_operandInv hs' hp) h
    · exact respond_operandInv (present_operandInv hs' hp) _
  · obtain ⟨hp, hc⟩ := resetWith_phase z id { s with env := { s.env with sched := rest } }
    exact operandInv_iff.2 ⟨pOperands_of_idle hp, cOperands_of_idle hc⟩

end

end Sys2Proof.Machine
end

section
/-! PROOFS, family 20_memory.md. Positions and copies, where a step stores, the stream, and liveness. -/

namespace Sys2Proof.Machine

/-! ### Positions, copies and samples -/

/-- Positions `SIZE` apart share their index (20_memory.md R48). -/
theorem idx_add_size {s : State} (h : s.SizeInv) {q : Word} (h0 : 0 ≤ q.toInt)
    (hmax : q.toInt + s.size.toInt ≤ maxInt64) : s.idx (narrow (q.toInt + s.size.toInt)) = s.idx q := by
  obtain ⟨hsize, -, -, -, -, hmod⟩ := SizeInv.facts h
  have hn : (narrow (q.toInt + s.size.toInt)).toInt = q.toInt + s.size.toInt :=
    toInt_narrow _ (by unfold minInt64; omega) hmax
  rw [hmod _ (by omega), hmod q h0, hn, hsize, Int.toNat_add h0 (by omega), Int.toNat_natCast, Nat.add_mod_right]

/-- Settles O8, from the arithmetic of a power-of-two ring (`SizeInv.facts`). -/
theorem indexIsPositionModSize : Obligations.IndexIsPositionModSize := by
  intro s q h h0
  obtain ⟨-, -, -, -, hlt, hmod⟩ := SizeInv.facts h
  obtain ⟨hpow, hbits⟩ := SizeInv.addrBits h
  exact ⟨rfl, hmod q h0, hlt q, idx_add_size h h0, hpow, hbits⟩

/-- Settles O9, from the laws of `ringCopy`; a cell that is no image of the run is not covered. -/
theorem ringCopyWrapsToZero : Obligations.RingCopyWrapsToZero := by
  intro m size start v hw hs hv
  obtain ⟨m', hm⟩ := ringCopy_total m size start v hs hv
  refine ⟨m', hm, ringCopy_wf _ _ _ _ _ hw hm, fun i hi => ringCopy_read_in _ _ _ _ i v hs hv hi hm, fun a ha => ?_⟩
  apply ringCopy_read_out _ _ _ _ _ _ hm
  by_contra hcov
  obtain ⟨i, hi, he⟩ := ringCovers_image _ _ _ _ hs hv (by simpa using hcov)
  exact ha i hi he

/-- A lag of exactly the distance makes a lagging load return `v` (R59). -/
theorem observe_lagging_eq {floor cur v : Word} (hf : floor.toInt ≤ v.toInt) (hc : v.toInt ≤ cur.toInt) :
    observe .lagging floor cur (cur.toInt - v.toInt).toNat = v := by
  have he : min cur.toInt (max floor.toInt (cur.toInt - (cur.toInt - v.toInt).toNat)) = v.toInt := by omega
  simp only [observe, he, narrow_toInt]

/-- Settles O10, from the bounds of a sample and the lag that reaches a value. -/
theorem sampleRange : Obligations.SampleRange := by
  refine ⟨fun s _ hmode => ?_, fun s h => sample_bounds h, fun floor cur v hf hc => ⟨_, observe_lagging_eq hf hc⟩⟩
  rw [State.sample, hmode, observe_none]

/-! ### The two waits -/

/-- A waiting producer has a claim of at most `SIZE` bytes, so its wrap is not above its cursor (R96). -/
theorem PLabelInv.wrap_le {s : State} {i : Instr} {l : Label} (hl : l = .G2 ∨ l = .G3) (h : s.PLabelInv i l) :
    s.p.wrap.toInt ≤ s.pseq.cursor.toInt := by
  obtain ⟨⟨-, -, hle, -⟩, hpos, hnext, hwrap, -⟩ : s.GateOperands i ∧ s.GateLatches := by
    rcases hl with rfl | rfl <;> exact h
  rw [hpos] at hnext
  omega

/-- A waiting consumer looks at its own cursor (41_consumer_commands.md R107). -/
theorem CLabelInv.cpos_eq {s : State} {i : Instr} {l : Label} (hl : l = .K2 ∨ l = .K3) (h : s.CLabelInv i l) :
    s.c.cpos = s.cseq.cursor := by
  rcases hl with rfl | rfl <;> exact h.2

/-- Settles O16: a blocked consumer sees an empty ring, and in an empty ring every claim is free. -/
theorem neverBothBlocked : Obligations.NeverBothBlocked := by
  rintro s hinv hcfg ⟨⟨⟨i, hi⟩, hp⟩, ⟨j, hj⟩, hc⟩
  have h := hinv.ready hcfg
  have hwrap : s.p.wrap.toInt ≤ s.pseq.cursor.toInt := by
    rcases hi with hi | hi
    · exact PLabelInv.wrap_le (.inl rfl) (PhaseInv.run (h.phaseInv .P) hi).2
    · exact PLabelInv.wrap_le (.inr rfl) (PhaseInv.run (h.phaseInv .P) hi).2
  have hcpos : s.c.cpos = s.cseq.cursor := by
    rcases hj with hj | hj
    · exact CLabelInv.cpos_eq (.inl rfl) (PhaseInv.run (h.phaseInv .C) hj).2
    · exact CLabelInv.cpos_eq (.inr rfl) (PhaseInv.run (h.phaseInv .C) hj).2
  rw [hcpos] at hc
  omega

/-! ### Every command as its steps -/

/-- The labelled steps of a command. -/
def stepOf : Instr → Label → State → Out
  | .write _ => writeStep respond
  | .rsve => rsveStep respond
  | .publ _ => publStep respond
  | .read _ => readStep respond
  | .peek _ => peekStep respond
  | .commit _ => commitStep respond
  | .readFrom => readFromStep
  | .readFromB => readFromBStep
  | .writeTo => writeToStep
  | .close => closeStep
  | .len => lenStep
  | .ident => identStep

theorem exec_eq_command (i : Instr) (s : State) : exec i s = command i (firstLabel i) (stepOf i) s := by
  cases i <;> rfl

section
variable {s t u v : State} {i : Instr} {l : Label}

/-- What `exec` can do: answer `ILLEGAL`, or take a labelled step, at acceptance or in the middle of the command
(30_encoding.md R71, R77, R86). -/
theorem exec_next (h : exec i s = .next t) :
    (s.phase = .idle ∧ legal s.turn i s = false ∧ t = s.respond ⟨.illegal, 0, 0, []⟩) ∨
      ∃ l v, s.Enters i l v ∧ accepts s.turn i = true ∧
        (s.phase = .idle → legal s.turn i s = true ∧ i.payloadFits s.size (s.port s.turn).payload = true) ∧
        stepOf i l v = .next t := by
  rw [exec_eq_command] at h
  rcases command_next h with ⟨hp, hl, hf, h⟩ | ⟨hp, hl, rfl⟩ | ⟨l, hp, ha, h⟩
  · exact .inr ⟨_, _, .accept hp, (legal_eq_true.1 hl).2.1, fun _ => ⟨hl, hf⟩, h⟩
  · exact .inl ⟨hp, hl, rfl⟩
  · exact .inr ⟨l, s, .middle hp, ha, fun hi => absurd (hp.symm.trans hi) nofun, h⟩

/-! ### What a step does to the bytes and to the producer cursor -/

/-- An answer that leaves the bytes of `s` and its producer cursor alone. -/
def State.KeepsBytes (s : State) : Out → Prop
  | .next t => t.buf = s.buf ∧ t.tmp = s.tmp ∧ t.pseq.cursor = s.pseq.cursor
  | .fault _ => True
  | .refused _ => True

@[simp] theorem goto_keepsBytes :
    s.KeepsBytes (goto l u) ↔ u.buf = s.buf ∧ u.tmp = s.tmp ∧ u.pseq.cursor = s.pseq.cursor := by
  simp [goto, State.KeepsBytes]

@[simp] theorem respond_keepsBytes {r : Response} :
    s.KeepsBytes (respond r u) ↔ u.buf = s.buf ∧ u.tmp = s.tmp ∧ u.pseq.cursor = s.pseq.cursor := by
  simp [respond, State.KeepsBytes]

/-! #### The ends of the streaming commands' inner commands and calls -/

theorem sourceEnd_keepsBytes (again : Label) (s : State) : s.KeepsBytes (sourceEnd again s) := by
  unfold sourceEnd
  split <;> simp

theorem srcRead_keepsBytes (max : Int) (l : Label) (s : State) : s.KeepsBytes (srcRead max l s) := by
  unfold srcRead
  split
  · exact ⟨rfl, rfl, rfl⟩
  · split
    · simp
    · trivial

theorem sinkWrite_keepsBytes (l : Label) (s : State) : s.KeepsBytes (sinkWrite l s) := by
  unfold sinkWrite
  split
  · exact ⟨rfl, rfl, rfl⟩
  · split
    · simp
    · trivial

theorem readFromAfterRsve_keepsBytes (r : Response) (s : State) : s.KeepsBytes (readFromAfterRsve r s) := by
  unfold readFromAfterRsve
  split <;> simp

theorem readFromAfterPubl_keepsBytes (r : Response) (s : State) : s.KeepsBytes (readFromAfterPubl r s) := by
  simp [readFromAfterPubl, addTotalP]

theorem readFromBAfterWrite_keepsBytes (r : Response) (s : State) : s.KeepsBytes (readFromBAfterWrite r s) := by
  unfold readFromBAfterWrite
  simp only
  split <;> simp [addTotalP]

theorem writeToAfterPeek_keepsBytes (r : Response) (s : State) : s.KeepsBytes (writeToAfterPeek r s) := by
  unfold writeToAfterPeek
  split <;> simp

theorem writeToAfterSink_keepsBytes (s : State) : s.KeepsBytes (writeToAfterSink s) := by
  unfold writeToAfterSink
  split
  · simp [startCommit]
  · simp only
    split <;> simp [startCommit, addTotalC]

theorem writeToAfterCommit_keepsBytes (r : Response) (s : State) : s.KeepsBytes (writeToAfterCommit r s) := by
  unfold writeToAfterCommit
  split <;> simp [startPeek, addTotalC]

/-! #### The effect of a step, by its label -/

/-- The run of `BUF` cells a step at label `l` stores (40_producer_commands.md R92 W3, R95 U1). -/
def State.bufStoreAt (s : State) : Label → Option (Nat × List Byte)
  | .W3 => some (s.idx s.p.ppos, s.p.data)
  | .U1 => some (s.idx s.rsv.pos, s.p.data)
  | _ => none

/-- How many bytes PEEK shows at B3 (41_consumer_commands.md R110). -/
def State.viewLen (s : State) : Nat := (min s.c.n.toInt s.c.avail.toInt).toNat

/-- How many cells of `TMP` a step at label `l` stores (R110 B3). -/
def State.tmpStoreAt (s : State) : Label → Nat
  | .B3 => if contiguous s.sizeNat (s.idx s.c.cpos) s.viewLen then 0 else s.viewLen
  | _ => 0

/-- The producer cursor after a step at label `l` (R92 W4, R95 U2). -/
def State.pseqAfter (s : State) : Label → Word
  | .W4 => s.p.next
  | .U2 => narrow (s.rsv.pos.toInt + s.p.n.toInt)
  | _ => s.pseq.cursor

/-- The space `m` is `BUF` after the run `o` has been stored. -/
def State.Stores (s : State) (m : Memory) : Option (Nat × List Byte) → Prop
  | none => m = s.buf
  | some (start, v) => ringCopy s.buf s.sizeNat start v = .ok m

/-- What a step at label `l` from `s` to `t` does to the bytes and the producer cursor. -/
structure State.Effect (s : State) (l : Label) (t : State) : Prop where
  buf : s.Stores t.buf (s.bufStoreAt l)
  tmp : ∀ a, s.tmpStoreAt l ≤ a → t.tmp.read a = s.tmp.read a
  pseq : t.pseq.cursor = s.pseqAfter l

/-- The labels whose steps store bytes or publish them. -/
def effectLabels : List Label := [.W3, .U1, .B3, .W4, .U2]

theorem State.KeepsBytes.of_next {o : Out} (hk : s.KeepsBytes o) (h : o = .next t) :
    t.buf = s.buf ∧ t.tmp = s.tmp ∧ t.pseq.cursor = s.pseq.cursor := by
  subst h
  exact hk

/-- A step that leaves all that alone has the effect of every other label. -/
theorem State.KeepsBytes.effect {o : Out} (hk : s.KeepsBytes o) (h : o = .next t)
    (hl : l ∉ effectLabels := by decide) : s.Effect l t := by
  obtain ⟨hbuf, htmp, hpseq⟩ := hk.of_next h
  cases l with
  | W3 | U1 | B3 | W4 | U2 => exact absurd hl (by decide)
  | _ => exact ⟨hbuf, fun a _ => by rw [htmp], hpseq⟩

theorem goto_effect {k : Label} (hu : u.buf = s.buf ∧ u.tmp = s.tmp ∧ u.pseq.cursor = s.pseq.cursor := by simp)
    (hl : l ∉ effectLabels := by decide) : s.Effect l (u.goto k) :=
  (goto_keepsBytes.2 hu).effect rfl hl

/-- The start of an inner command changes nothing that a step stores. -/
theorem State.Effect.of_raiseFloor (h : s.raiseFloor.Effect l t) : s.Effect l t := by
  rw [State.raiseFloor] at h
  generalize s.turn = a at h
  cases a <;> exact ⟨h.buf, h.tmp, h.pseq⟩

theorem gateStep_effect {after : Label} {onEos : State → Out} (he : ∀ u : State, u.KeepsBytes (onEos u))
    (h : gateStep after onEos l s = .next t) : s.Effect l t := by
  rcases gateStep_next h with
    ⟨rfl, -, -, rfl, rfl⟩ | ⟨rfl, -, rfl⟩ | ⟨rfl, -, rfl⟩ | ⟨rfl, -, h⟩ | ⟨rfl, -, rfl⟩ | ⟨rfl, rfl⟩
  · exact goto_effect
  · exact goto_effect
  · exact goto_effect
  · exact (he s).effect h
  · exact goto_effect
  · exact goto_effect

theorem cwaitStep_effect {after : Label} {onEos : State → Out} (he : ∀ u : State, u.KeepsBytes (onEos u))
    (h : cwaitStep after onEos l s = .next t) : s.Effect l t := by
  rcases cwaitStep_next h with ⟨rfl, rfl⟩ | ⟨rfl, rfl⟩ | ⟨rfl, -, h⟩ | ⟨rfl, -, rfl⟩ | ⟨rfl, rfl⟩
  · exact goto_effect
  · exact goto_effect
  · have heos : s.KeepsBytes (onEos s.bumpCwait) := he s.bumpCwait
    exact heos.effect h
  · exact goto_effect
  · exact goto_effect

/-- The wrapping copy of PEEK writes `TMP` below the length of the view only (R110). -/
theorem splitCopy_read_out {buf tmp tmp' : Memory} {size start m : Nat} {view : List Byte} (hm : size < start + m)
    (h : splitCopy buf tmp size start m = .ok (view, tmp')) : ∀ a, m ≤ a → tmp'.read a = tmp.read a := by
  unfold splitCopy at h
  simp only at h
  split at h
  · cases h
  next front h1 =>
  split at h
  · cases h
  next tmp1 h2 =>
  split at h
  · cases h
  next back h3 =>
  split at h
  · cases h
  next tmp2 h4 =>
  split at h
  · cases h
  cases h
  obtain ⟨hstart, hfront⟩ := memRead_ok _ _ _ _ _ h1
  obtain ⟨-, rfl⟩ := memWrite_ok _ _ _ _ _ h2
  obtain ⟨-, hback⟩ := memRead_ok _ _ _ _ _ h3
  obtain ⟨-, rfl⟩ := memWrite_ok _ _ _ _ _ h4
  have hlf := Memory.readRun_length _ _ _ _ hfront
  have hlb := Memory.readRun_length _ _ _ _ hback
  intro a ha
  rw [Memory.read_write_out _ _ _ _ (by omega), Memory.read_write_out _ _ _ _ (by omega)]

section
variable {ret : Response → State → Out} (hr : ∀ (r : Response) (u : State), u.KeepsBytes (ret r u))
include hr

theorem ret_effect {r : Response} (h : ret r u = .next t)
    (hu : u.buf = s.buf ∧ u.tmp = s.tmp ∧ u.pseq.cursor = s.pseq.cursor := by simp)
    (hl : l ∉ effectLabels := by decide) : s.Effect l t := by
  obtain ⟨hbuf, htmp, hpseq⟩ := (hr r u).of_next h
  exact State.KeepsBytes.effect (o := .next t) ⟨hbuf.trans hu.1, htmp.trans hu.2.1, hpseq.trans hu.2.2⟩ rfl hl

theorem writeStep_effect (h : writeStep ret l s = .next t) : s.Effect l t := by
  rcases writeStep_next h with ⟨rfl, e, -, h⟩ | ⟨rfl, -, rfl⟩ | ⟨rfl, m, hm, rfl⟩ | ⟨rfl, h⟩ | h
  · exact ret_effect hr h
  · exact goto_effect
  · exact ⟨by simpa [State.bufStoreAt, State.Stores] using hm, fun a _ => by simp, by simp [State.pseqAfter]⟩
  · obtain ⟨hbuf, htmp, hpseq⟩ := (hr _ _).of_next h
    exact ⟨hbuf, fun a _ => by rw [htmp, storePseq_tmp], hpseq⟩
  · exact gateStep_effect (hr _) h

theorem rsveStep_effect (h : rsveStep ret l s = .next t) : s.Effect l t := by
  rcases rsveStep_next h with ⟨rfl, rfl⟩ | ⟨rfl, h⟩ | h
  · exact goto_effect
  · exact ret_effect hr h
  · exact gateStep_effect (hr _) h

theorem publStep_effect (h : publStep ret l s = .next t) : s.Effect l t := by
  rcases publStep_next h with ⟨rfl, -, m, hm, rfl⟩ | ⟨rfl, h⟩
  · obtain ⟨hfits, rfl⟩ := memWrite_ok _ _ _ _ _ hm
    exact ⟨by simpa [State.bufStoreAt, State.Stores] using ringCopy_contiguous _ _ _ _ hfits, fun a _ => by simp,
      by simp [State.pseqAfter]⟩
  · obtain ⟨hbuf, htmp, hpseq⟩ := (hr _ _).of_next h
    exact ⟨hbuf, fun a _ => by rw [htmp, setRsv_tmp, storePseq_tmp], hpseq⟩

theorem readStep_effect (h : readStep ret l s = .next t) : s.Effect l t := by
  rcases readStep_next h with ⟨rfl, -, h⟩ | ⟨rfl, -, rfl⟩ | ⟨rfl, m, out, -, -, rfl⟩ | ⟨rfl, h⟩ | h
  · exact ret_effect hr h
  · exact goto_effect
  · exact goto_effect
  · exact ret_effect hr h
  · exact cwaitStep_effect (hr _) h

/-- At B3 PEEK stores the view in `TMP` if it wraps, and nothing else (R110). -/
theorem peekStep_B3_effect (h : peekStep ret .B3 s = .next t) : s.Effect .B3 t := by
  have hkept : ∀ r x, ret r (s.setC x) = .next t → s.Effect .B3 t := fun r x h => by
    obtain ⟨hbuf, htmp, hpseq⟩ := (hr _ _).of_next h
    exact ⟨hbuf, fun a _ => by rw [htmp, setC_tmp], hpseq⟩
  rcases peekStep_next h with ⟨⟨⟩, -⟩ | ⟨⟨⟩, -⟩ | ⟨-, m, start, s', rfl, rfl, rfl, h⟩ | h
  · rcases h with ⟨-, h⟩ | ⟨-, -, view, -, h⟩ | ⟨-, hc, view, tmp, hsplit, h⟩
    · exact hkept _ _ h
    · exact hkept _ _ h
    · obtain ⟨hbuf, htmp, hpseq⟩ := (hr _ _).of_next h
      refine ⟨hbuf, fun a ha => ?_, hpseq⟩
      simp only [State.tmpStoreAt, State.viewLen, hc, Bool.false_eq_true, if_false] at ha
      rw [htmp, setTmp_tmp, splitCopy_read_out (by simpa [contiguous] using hc) hsplit a ha]
  · cases h

theorem peekStep_effect (h : peekStep ret l s = .next t) : s.Effect l t := by
  rcases peekStep_next h with ⟨rfl, e, -, h'⟩ | ⟨rfl, -, rfl⟩ | ⟨rfl, -⟩ | h'
  · exact ret_effect hr h'
  · exact goto_effect
  · exact peekStep_B3_effect hr h
  · exact cwaitStep_effect (hr _) h'

theorem commitStep_effect (h : commitStep ret l s = .next t) : s.Effect l t := by
  rcases commitStep_next h with ⟨rfl, e, -, h⟩ | ⟨rfl, -, rfl⟩ | ⟨rfl, s', rfl, ⟨-, rfl⟩ | ⟨-, h⟩⟩ | ⟨rfl, h⟩
  · exact ret_effect hr h
  · exact goto_effect
  · exact goto_effect
  · exact ret_effect hr h
  · exact ret_effect hr h

end

theorem lenStep_effect (h : lenStep l s = .next t) : s.Effect l t := by
  rcases lenStep_next h with ⟨rfl, -, rfl⟩ | ⟨rfl, -, rfl⟩ | ⟨rfl, -, rfl⟩ | ⟨rfl, -, rfl⟩
  · exact goto_effect
  · exact goto_effect
  all_goals exact (respond_keepsBytes.2 (by simp)).effect rfl

theorem readFromStep_effect (h : readFromStep l s = .next t) : s.Effect l t := by
  unfold readFromStep at h
  split at h
  · exact State.KeepsBytes.effect (by simp) h
  · exact (srcRead_keepsBytes _ _ s).effect h
  · exact (sourceEnd_keepsBytes _ s).effect h
  · exact (rsveStep_effect readFromAfterRsve_keepsBytes h).of_raiseFloor
  · exact (publStep_effect readFromAfterPubl_keepsBytes h).of_raiseFloor
  · exact publStep_effect readFromAfterPubl_keepsBytes h
  · exact rsveStep_effect readFromAfterRsve_keepsBytes h

theorem readFromBStep_effect (h : readFromBStep l s = .next t) : s.Effect l t := by
  unfold readFromBStep at h
  split at h
  · exact State.KeepsBytes.effect (by simp) h
  · exact (srcRead_keepsBytes _ _ s).effect h
  · exact (sourceEnd_keepsBytes _ s).effect h
  · exact (writeStep_effect readFromBAfterWrite_keepsBytes h).of_raiseFloor
  · exact writeStep_effect readFromBAfterWrite_keepsBytes h

theorem writeToStep_effect (h : writeToStep l s = .next t) : s.Effect l t := by
  unfold writeToStep at h
  split at h
  · exact State.KeepsBytes.effect (by simp [startPeek]) h
  · exact (sinkWrite_keepsBytes _ s).effect h
  · exact (writeToAfterSink_keepsBytes s).effect h
  · exact (peekStep_effect writeToAfterPeek_keepsBytes h).of_raiseFloor
  · exact (commitStep_effect writeToAfterCommit_keepsBytes h).of_raiseFloor
  · exact commitStep_effect writeToAfterCommit_keepsBytes h
  · exact commitStep_effect writeToAfterCommit_keepsBytes h
  · exact peekStep_effect writeToAfterPeek_keepsBytes h

/-- The effect of a labelled step of any command. -/
theorem stepOf_effect (h : stepOf i l s = .next t) : s.Effect l t := by
  have hrespond : ∀ (r : Response) (u : State), u.KeepsBytes (respond r u) := by simp
  cases i with
  | write n => exact writeStep_effect hrespond h
  | rsve => exact rsveStep_effect hrespond h
  | publ k => exact publStep_effect hrespond h
  | read cap => exact readStep_effect hrespond h
  | peek n => exact peekStep_effect hrespond h
  | commit n => exact commitStep_effect hrespond h
  | readFrom => exact readFromStep_effect h
  | readFromB => exact readFromBStep_effect h
  | writeTo => exact writeToStep_effect h
  | close =>
    obtain ⟨rfl, rfl⟩ := closeStep_next h
    exact (respond_keepsBytes.2 (by simp)).effect rfl
  | len => exact lenStep_effect h
  | ident =>
    obtain ⟨rfl, rfl⟩ := identStep_next h
    exact (respond_keepsBytes.2 (by simp)).effect rfl

/-! #### The effect of a command -/

@[simp] theorem accept_mask (i : Instr) (l : Label) (s : State) : (accept i l s).mask = s.mask :=
  congrArg Configuration.mask (accept_configuration s i l)

/-- What the step of a command stores in `BUF` is what its label stores there. -/
theorem State.Enters.bufStore (hv : s.Enters i l v) (hl : s.phase = .idle → legal s.turn i s = true) :
    s.bufStore i = v.bufStoreAt l := by
  obtain ⟨hp, rfl⟩ | ⟨hp, rfl, rfl⟩ := hv.start
  · simp only [State.bufStore, hp]
    cases l <;> rfl
  · have hleg := hl hp
    cases i with
    | publ k =>
      have ht : s.turn = .P := accepts_producer rfl (legal_eq_true.1 hleg).2.1
      have hp' := accept_publ (s := s) ht k .U1
      simp [State.bufStore, hp, hleg, State.bufStoreAt, firstLabel, hp', State.idx]
    | _ => simp [State.bufStore, hp, State.bufStoreAt, firstLabel]

/-- What the step of a command stores in `TMP` is what its label stores there. -/
theorem State.Enters.tmpStore (hv : s.Enters i l v) : s.tmpStore = v.tmpStoreAt l := by
  obtain ⟨hp, rfl⟩ | ⟨hp, rfl, rfl⟩ := hv.start
  · rw [State.tmpStore, hp]
    cases l <;> rfl
  · cases i <;> simp [State.tmpStore, hp, State.tmpStoreAt, firstLabel]

/-- A command that is not accepted stores nothing. -/
theorem bufStore_illegal (hp : s.phase = .idle) (hl : legal s.turn i s = false) : s.bufStore i = none := by
  cases i <;> simp [State.bufStore, hp, hl]

/-- A command stores in `BUF` what `bufStore` says, and in `TMP` as many cells as `tmpStore` says. -/
theorem exec_stores (h : exec i s = .next t) :
    s.Stores t.buf (s.bufStore i) ∧ ∀ a, s.tmpStore ≤ a → t.tmp.read a = s.tmp.read a := by
  rcases exec_next h with ⟨hp, hl, rfl⟩ | ⟨l, v, hv, -, hl, h⟩
  · rw [bufStore_illegal hp hl]
    exact ⟨respond_buf _ _, fun a _ => by rw [respond_tmp]⟩
  · obtain ⟨hbuf, htmp, -⟩ := stepOf_effect h
    have hsize : v.sizeNat = s.sizeNat := by rw [State.sizeNat, hv.size, State.sizeNat]
    rw [hv.bufStore fun hi => (hl hi).1, hv.tmpStore]
    refine ⟨?_, fun a ha => by rw [htmp a ha, hv.tmp]⟩
    cases ho : v.bufStoreAt l with
    | none => simpa only [ho, State.Stores, hv.buf] using hbuf
    | some o => simpa only [ho, State.Stores, hv.buf, hsize] using hbuf

end

/-- Settles O43: a command stores what `bufStore` and `tmpStore` say (`exec_stores`); the rest is what `ringCopy`
does. -/
theorem storedBytesOnly : Obligations.StoredBytesOnly := by
  intro i s t h
  obtain ⟨hbuf, htmp⟩ := exec_stores h
  refine ⟨fun ho a => ?_, fun start v ho => ?_, htmp⟩
  · rw [ho] at hbuf
    exact congrArg (Memory.read · a) hbuf
  · rw [ho] at hbuf
    exact ⟨fun a ha => ringCopy_read_out _ _ _ _ _ _ hbuf ha,
      fun hs hv j hj => ringCopy_read_in _ _ _ _ j v hs hv hj hbuf⟩

/-! ### A step of the machine that is no reset -/

/-- `u` is the state in which the agent of port `a` takes the next step from `s`: it differs in whose turn it is, the
schedule and the inputs of that port. -/
structure State.Takes (s : State) (a : Port) (u : State) : Prop where
  turn : u.turn = a
  phase : u.phase = (s.port a).phase
  ready : s.ReadyInv → u.ReadyInv
  pseq : u.pseq = s.pseq
  cseq : u.cseq = s.cseq
  buf : u.buf = s.buf
  size : u.size = s.size
  mask : u.mask = s.mask
  params : u.params = s.params
  p : u.p = s.p

section
variable {s t u v : State} {i : Instr} {a : Port} {l : Label}

theorem atTurn_takes (s : State) (a : Port) (lag : Nat) (rest : List Turn) : s.Takes a (s.atTurn a lag rest) where
  turn := rfl
  phase := atTurn_port s a lag rest a ▸ rfl
  ready h := { h with }
  pseq := rfl
  cseq := rfl
  buf := rfl
  size := rfl
  mask := rfl
  params := rfl
  p := rfl

theorem State.Takes.present (h : s.Takes a u) (pr : Presented) (rest : List Presented) :
    s.Takes a (present pr rest a u) where
  turn := by simp [Machine.present, h.turn]
  phase := by
    have ht : (Machine.present pr rest a u).turn = a := by simp [Machine.present, h.turn]
    rw [State.phase, ht, present_port, ← h.phase, State.phase, h.turn]
  ready hs := (h.ready hs).present pr rest a
  pseq := by simp [Machine.present, h.pseq]
  cseq := by simp [Machine.present, h.cseq]
  buf := by simp [Machine.present, h.buf]
  size := by simp [Machine.present, h.size]
  mask := by simp [Machine.present, h.mask]
  params := by simp [Machine.present, h.params]
  p := by simp [Machine.present, h.p]

/-- A step that is no reset changes nothing, or is the step of an agent: it has nothing to do, answers `ILLEGAL`, or
executes a command (R14, R71, R86). -/
theorem step_takes (hr : s.resetNext = false) (h : step s = .next t) :
    (s.env.sched = [] ∧ t = s) ∨
      ∃ a lag rest u, s.env.sched = .run a lag :: rest ∧ s.Takes a u ∧
        ((u.phase = .idle ∧ (t = u ∨ t = u.respond ⟨.illegal, 0, 0, []⟩)) ∨ ∃ i, exec i u = .next t) := by
  rcases step_next h with hs | ⟨a, lag, rest, hs, h⟩ | ⟨z, id, rest, hs, -⟩
  · exact .inl hs
  · have ht := atTurn_takes s a lag rest
    refine .inr ⟨a, lag, rest, ?_⟩
    rcases stepPort_next h with ⟨i, l, -, h⟩ | ⟨hp, -, rfl⟩ | ⟨hp, pr, rest', -, ⟨i, -, h⟩ | ⟨-, rfl⟩⟩
    · exact ⟨_, hs, ht, .inr ⟨i, h⟩⟩
    · exact ⟨_, hs, ht, .inl ⟨hp, .inl rfl⟩⟩
    · exact ⟨_, hs, ht.present pr rest', .inr ⟨i, h⟩⟩
    · have ht' := ht.present pr rest'
      exact ⟨_, hs, ht', .inl ⟨by rw [ht'.phase, ← atTurn_port s a lag rest a]; exact hp, .inr rfl⟩⟩
  · simp [State.resetNext, hs] at hr

/-! ### The unread window -/

/-- A run as long as the reservation lies at the producer cursor and ends before the first unread position comes round
(10_state.md R32; 40_producer_commands.md R99). -/
theorem State.ReadyInv.reserved_free (h : s.ReadyInv) (hv : s.rsv.valid = true) {n : Nat} (hn : n ≤ s.rsv.len.toInt) :
    s.rsv.pos = s.pseq.cursor ∧ s.pseq.cursor.toInt + n ≤ s.cseq.cursor.toInt + s.size.toInt := by
  obtain ⟨hpos, -, -, -, hg, -⟩ := h.rsv hv
  obtain ⟨-, hgc, -⟩ := h.gate
  rw [hpos] at hg
  exact ⟨hpos, by omega⟩

/-- A run that is stored at a free place: from the producer cursor on, ending before the first unread position comes
round (20_memory.md R58). -/
def State.Free (s : State) (start : Nat) (d : List Byte) : Prop :=
  start = s.idx s.pseq.cursor ∧ s.pseq.cursor.toInt + d.length ≤ s.cseq.cursor.toInt + s.size.toInt

/-- W3 and U1 store at a free place (R98, R99). -/
theorem State.ReadyInv.bufStoreAt_free (h : s.ReadyInv) (hp : s.phase = .run i l) {start : Nat} {d : List Byte}
    (ho : s.bufStoreAt l = some (start, d)) : s.Free start d := by
  obtain ⟨-, hlab⟩ := PhaseInv.run (h.phaseInv s.turn) hp
  cases l with
  | W3 =>
    cases ho
    cases ht : s.turn with
    | C => exact (ht ▸ hlab).elim
    | P =>
      rw [ht] at hlab
      obtain ⟨hi, hops, hc⟩ := hlab
      obtain ⟨hpos, hnext, -, -, hg, -⟩ := Claimed.bounds hops hc
      have hlen := GateOperands.data_length hops hi
      have hgc := h.gate.2.1
      exact ⟨by rw [hpos], by omega⟩
  | U1 =>
    cases ho
    cases ht : s.turn with
    | C => exact (ht ▸ hlab).elim
    | P =>
      rw [ht] at hlab
      obtain ⟨-, hv, hlen, hle⟩ := hlab
      obtain ⟨hpos, hfree⟩ := h.reserved_free hv (n := s.p.data.length) (by omega)
      exact ⟨by rw [hpos], hfree⟩
  | _ => cases ho

/-- A PUBL stores at a free place at its acceptance (R95, R99). -/
theorem State.ReadyInv.publ_free (h : s.ReadyInv) {k : Word} (hleg : legal s.turn (.publ k) s = true)
    (hfits : (Instr.publ k).payloadFits s.size (s.port s.turn).payload = true) :
    s.Free (s.idx s.rsv.pos) (takenPayload s.size k s.pPort.payload) := by
  obtain ⟨-, ha, hadm⟩ := legal_eq_true.1 hleg
  rw [accepts_producer rfl ha, port_P] at hfits
  simp only [admitted, Bool.and_eq_true, decide_eq_true_eq] at hadm
  obtain ⟨⟨hv, h0⟩, hle⟩ := hadm
  obtain ⟨-, -, -, hidx, -⟩ := h.rsv hv
  have hlen := takenPayload_length (n := k) hfits h0 (by omega)
  obtain ⟨hpos, hfree⟩ := h.reserved_free hv (n := (takenPayload s.size k s.pPort.payload).length) (by omega)
  exact ⟨by rw [hpos], hfree⟩

/-- What a command stores lies at a free place. -/
theorem State.ReadyInv.bufStore_free (h : s.ReadyInv) (hx : exec i s = .next t) {start : Nat} {d : List Byte}
    (ho : s.bufStore i = some (start, d)) : s.Free start d := by
  rcases exec_next hx with ⟨hp, hl, -⟩ | ⟨l, v, hv, -, hl, -⟩
  · cases (bufStore_illegal hp hl).symm.trans ho
  obtain ⟨hp, rfl⟩ | ⟨hp, -, -⟩ := hv.start
  · rw [hv.bufStore fun hi => (hl hi).1] at ho
    exact h.bufStoreAt_free hp ho
  · obtain ⟨hleg, hfits⟩ := hl hp
    cases i with
    | publ k =>
      simp only [State.bufStore, hp, hleg, if_true] at ho
      cases ho
      exact h.publ_free hleg hfits
    | _ => simp [State.bufStore, hp] at ho

/-- From `s` to `t` bytes of `BUF` change only at images of free positions, and the unread ones stay (R58). -/
structure State.WindowKept (s t : State) : Prop where
  changed : ∀ a, t.buf.read a ≠ s.buf.read a →
    ∃ q : Int, s.pseq.cursor.toInt ≤ q ∧ q < s.cseq.cursor.toInt + s.size.toInt ∧ a = s.idx (narrow q)
  unread : ∀ q : Int, s.cseq.cursor.toInt ≤ q → q < s.pseq.cursor.toInt → t.at q = s.at q

/-- A free position shares its index with no unread one (R70). -/
theorem State.ReadyInv.idx_free_ne (h : s.ReadyInv) {q r : Int} (hq : s.cseq.cursor.toInt ≤ q)
    (hqp : q < s.pseq.cursor.toInt) (hr : s.pseq.cursor.toInt ≤ r) (hrc : r < s.cseq.cursor.toInt + s.size.toInt) :
    s.idx (narrow q) ≠ s.idx (narrow r) := by
  obtain ⟨h0, hcp, -, hmax⟩ := h.ring
  obtain ⟨hsize, -, -, -, -, hmod⟩ := SizeInv.facts h.size
  have hnq : (narrow q).toInt = q := toInt_narrow _ (by unfold minInt64; omega) (by omega)
  have hnr : (narrow r).toInt = r := toInt_narrow _ (by unfold minInt64; omega) (by omega)
  rw [hmod _ (by omega), hmod _ (by omega), hnq, hnr]
  exact mod_ne_of_lt_of_lt_add (by omega) (by omega)

theorem State.ReadyInv.windowKept_of_changed (h : s.ReadyInv) (hmask : t.mask = s.mask)
    (hc : ∀ a, t.buf.read a ≠ s.buf.read a →
      ∃ q : Int, s.pseq.cursor.toInt ≤ q ∧ q < s.cseq.cursor.toInt + s.size.toInt ∧ a = s.idx (narrow q)) :
    s.WindowKept t := by
  refine ⟨hc, fun q hq hqp => ?_⟩
  simp only [State.at, State.idx, hmask]
  by_contra hne
  obtain ⟨r, hr, hrc, he⟩ := hc _ hne
  exact h.idx_free_ne hq hqp hr hrc he

theorem exec_windowKept (h : s.ReadyInv) (hx : exec i s = .next t) : s.WindowKept t := by
  have hmask : t.mask = s.mask := congrArg Configuration.mask (exec_keepsConfiguration i hx).configuration
  refine h.windowKept_of_changed hmask fun a ha => ?_
  have hbuf := (exec_stores hx).1
  cases ho : s.bufStore i with
  | none =>
    rw [ho] at hbuf
    exact absurd (congrArg (Memory.read · a) hbuf) ha
  | some o =>
    obtain ⟨start, d⟩ := o
    rw [ho] at hbuf
    obtain ⟨rfl, hlen⟩ := h.bufStore_free hx ho
    obtain ⟨h0, hcp, hps, hmax⟩ := h.ring
    obtain ⟨hsize, -, -, -, hidx, hmod⟩ := SizeInv.facts h.size
    have hcov : ringCovers s.sizeNat (s.idx s.pseq.cursor) d.length a = true := by
      by_contra hcov
      exact ha (ringCopy_read_out _ _ _ _ _ _ hbuf (by simpa using hcov))
    obtain ⟨j, hj, rfl⟩ := ringCovers_image _ _ _ _ (hidx _) (by omega) hcov
    have hn : (narrow (s.pseq.cursor.toInt + j)).toInt = s.pseq.cursor.toInt + j :=
      toInt_narrow _ (by unfold minInt64; omega) (by omega)
    refine ⟨s.pseq.cursor.toInt + j, by omega, by omega, ?_⟩
    rw [hmod _ (by omega), hmod _ (by omega), hn, Int.toNat_add (by omega) (by omega), Int.toNat_natCast,
      Nat.mod_add_mod]

theorem State.Takes.at_eq (h : s.Takes a u) (q : Int) : u.at q = s.at q := by
  simp only [State.at, State.idx, h.buf, h.mask]

theorem State.Takes.windowKept (h : s.Takes a u) (hw : u.WindowKept t) : s.WindowKept t := by
  obtain ⟨hc, hu⟩ := hw
  simp only [h.pseq, h.cseq, h.buf, h.size, State.idx, h.mask, h.at_eq] at hc hu
  exact ⟨hc, hu⟩

theorem State.WindowKept.of_same_buf (hbuf : t.buf = s.buf) (hmask : t.mask = s.mask) : s.WindowKept t :=
  ⟨fun a ha => absurd (congrArg (Memory.read · a) hbuf) ha,
    fun q _ _ => by simp only [State.at, State.idx, hbuf, hmask]⟩

theorem step_windowKept (h : s.ReadyInv) (hr : s.resetNext = false) (hstep : step s = .next t) : s.WindowKept t := by
  rcases step_takes hr hstep with ⟨-, rfl⟩ | ⟨a, lag, rest, u, -, hu, ⟨-, rfl | rfl⟩ | ⟨i, hx⟩⟩
  · exact .of_same_buf rfl rfl
  · exact hu.windowKept (.of_same_buf rfl rfl)
  · exact hu.windowKept (.of_same_buf (by simp) (by simp))
  · exact hu.windowKept (exec_windowKept (hu.ready h) hx)

end

/-- Settles O50: what a command stores lies at free positions (`State.ReadyInv.bufStore_free`). -/
theorem windowPartition : Obligations.WindowPartition := by
  intro s t h hcfg hr hstep
  obtain ⟨hc, hu⟩ := step_windowKept (h.ready hcfg) hr hstep
  exact ⟨hc, hu⟩

/-! ### The stream -/

section
variable {s t u v : State} {i : Instr} {a : Port} {l : Label}

/-- The bytes of a run of positions, counted from its start. -/
theorem bytesAt_eq (s : State) (x y : Int) :
    s.bytesAt x y = (List.range (y - x).toNat).map fun j : Nat => s.at (x + j) := by
  simp only [State.bytesAt, List.pure_def, List.bind_eq_flatMap]
  rw [← List.map_eq_flatMap, List.map_map]
  rfl

theorem bytesAt_append {x y z : Int} (h1 : x ≤ y) (h2 : y ≤ z) : s.bytesAt x y ++ s.bytesAt y z = s.bytesAt x z := by
  have he : (z - x).toNat = (y - x).toNat + (z - y).toNat := by omega
  simp only [bytesAt_eq, he, List.range_add, List.map_append, List.map_map]
  congr 1
  refine List.map_congr_left fun j _ => ?_
  simp only [Function.comp_apply, Nat.cast_add]
  congr 1
  omega

theorem bytesAt_congr {x y : Int} (h : ∀ q, x ≤ q → q < y → t.at q = s.at q) : t.bytesAt x y = s.bytesAt x y := by
  rw [bytesAt_eq, bytesAt_eq]
  refine List.map_congr_left fun j hj => ?_
  rw [List.mem_range] at hj
  exact h _ (by omega) (by omega)

/-- Bytes that lie at the positions of a run are the bytes of the run. -/
theorem State.Holds.bytesAt {pos : Int} {d : List Byte} (h : s.Holds pos d) :
    s.bytesAt pos (pos + d.length) = d.map some := by
  refine List.ext_getElem (by simp [bytesAt_eq]) fun j h1 h2 => ?_
  rw [List.length_map] at h2
  simp only [bytesAt_eq, List.getElem_map, List.getElem_range]
  rw [h j h2, List.getElem?_eq_getElem h2]

/-- From `s` to `t`, where `d` is published, the unread bytes and then `d` are the bytes consumed and then the unread
bytes (20_memory.md R53). -/
def State.Conserves (s : State) (d : List Byte) (t : State) : Prop :=
  s.unread ++ d.map some = s.bytesAt s.cseq.cursor.toInt t.cseq.cursor.toInt ++ t.unread

/-- Bytes consumed in their order and bytes published behind them make the stream. -/
theorem stream_conserved {d : List Byte}
    (hu : ∀ q, s.cseq.cursor.toInt ≤ q → q < s.pseq.cursor.toInt → t.at q = s.at q)
    (h1 : s.cseq.cursor.toInt ≤ t.cseq.cursor.toInt) (h2 : t.cseq.cursor.toInt ≤ s.pseq.cursor.toInt)
    (hp : t.pseq.cursor.toInt = s.pseq.cursor.toInt + d.length) (hd : t.Holds s.pseq.cursor.toInt d) :
    s.Conserves d t := by
  have hc := bytesAt_congr (s := s) (t := t) (x := s.cseq.cursor.toInt) (y := t.cseq.cursor.toInt)
    fun q hq hq' => hu q hq (by omega)
  calc s.unread ++ d.map some
      = t.bytesAt s.cseq.cursor.toInt s.pseq.cursor.toInt ++ t.bytesAt s.pseq.cursor.toInt t.pseq.cursor.toInt := by
        rw [State.unread, ← bytesAt_congr hu, hp, hd.bytesAt]
    _ = t.bytesAt s.cseq.cursor.toInt t.pseq.cursor.toInt := bytesAt_append (by omega) (by omega)
    _ = s.bytesAt s.cseq.cursor.toInt t.cseq.cursor.toInt ++ t.unread := by
        rw [← hc, State.unread, bytesAt_append (by omega) (by omega)]

/-- The bytes a step at label `l` publishes (40_producer_commands.md R92 W4, R95 U2). -/
def State.publishedAt (s : State) : Label → List Byte
  | .W4 => s.p.data
  | .U2 => s.p.data
  | _ => []

/-- The bytes the step of the agent whose turn it is publishes. -/
def State.published (s : State) : List Byte :=
  match s.phase with
  | .idle => []
  | .run _ l =>
    match s.turn with
    | .P => s.publishedAt l
    | .C => []

theorem published_middle (ht : s.turn = .P) (hp : s.phase = .run i l) : s.published = s.publishedAt l := by
  simp only [State.published, ht, hp]

theorem published_idle (hp : s.phase = .idle) : s.published = [] := by
  simp only [State.published, hp]

theorem published_consumer (ht : s.turn = .C) : s.published = [] := by
  rw [State.published, ht]
  cases s.phase <;> rfl

/-- `t` has `d` behind the bytes published in `s`. -/
structure State.PublishesTo (s : State) (d : List Byte) (t : State) : Prop where
  cursor : t.pseq.cursor.toInt = s.pseq.cursor.toInt + d.length
  holds : t.Holds s.pseq.cursor.toInt d

theorem State.PublishesTo.nil (h : t.pseq.cursor = s.pseq.cursor) : s.PublishesTo [] t :=
  ⟨by simp [h], fun _ hj => absurd hj (by simp)⟩

/-- Bytes stay where they are when `BUF` and `MASK` stay. -/
theorem State.Holds.of_same_buf {pos : Int} {d : List Byte} (h : s.Holds pos d) (hbuf : t.buf = s.buf)
    (hmask : t.mask = s.mask) : t.Holds pos d := fun j hj => by
  simpa only [State.at, State.idx, hbuf, hmask] using h j hj

/-- W4 and U2 publish the payload, which lies at the producer cursor; no other step of agent P moves it. -/
theorem State.ReadyInv.publishes_middle (h : s.ReadyInv) (ht : s.turn = .P) (hp : s.phase = .run i l)
    (he : s.Effect l t) (hmask : t.mask = s.mask) : s.PublishesTo (s.publishedAt l) t := by
  obtain ⟨hbuf, -, hpseq⟩ := he
  obtain ⟨-, hlab⟩ := PhaseInv.run (h.phaseInv s.turn) hp
  rw [ht] at hlab
  cases l with
  | W4 =>
    obtain ⟨hi, hops, hc, hh⟩ := hlab
    obtain ⟨hpos, hnext, -⟩ := Claimed.bounds hops hc
    have hlen := GateOperands.data_length hops hi
    rw [hpos] at hh
    exact ⟨by rw [hpseq, State.publishedAt, hlen]; exact hnext, hh.of_same_buf hbuf hmask⟩
  | U2 =>
    obtain ⟨-, ⟨hv, hlen, hle⟩, hh⟩ := hlab
    obtain ⟨hpos, -, -, -, -, hmax⟩ := h.rsv hv
    obtain ⟨h0, hcp, hps, -⟩ := h.ring
    rw [hpos] at hh hmax
    refine ⟨?_, hh.of_same_buf hbuf hmask⟩
    rw [hpseq, State.publishedAt, hlen, State.pseqAfter, hpos]
    exact toInt_narrow _ (by unfold minInt64; omega) (by omega)
  | _ => exact .nil hpseq

/-- What a command of agent P publishes. -/
theorem exec_publishes (h : s.ReadyInv) (ht : s.turn = .P) (hx : exec i s = .next t) :
    s.PublishesTo s.published t := by
  have hmask : t.mask = s.mask := congrArg Configuration.mask (exec_keepsConfiguration i hx).configuration
  rcases exec_next hx with ⟨hp, -, rfl⟩ | ⟨l, v, hv, -, -, hstep⟩
  · rw [published_idle hp]
    exact .nil (by simp)
  · have he := stepOf_effect hstep
    obtain ⟨hp, rfl⟩ | ⟨hp, rfl, -⟩ := hv.start
    · rw [published_middle ht hp]
      exact h.publishes_middle ht hp he hmask
    · rw [published_idle hp]
      refine .nil (he.pseq.trans ?_)
      rw [← hv.pseq]
      cases i <;> rfl

/-- What the next step publishes is what the agent scheduled publishes. -/
theorem publishes_of_run {lag : Nat} {rest : List Turn} (hs : s.env.sched = .run a lag :: rest) (hu : s.Takes a u) :
    s.publishes = u.published := by
  cases a with
  | C => rw [published_consumer hu.turn, State.publishes, hs]
  | P =>
    have hp := hu.phase
    rw [port_P] at hp
    simp only [State.publishes, hs]
    cases hs' : s.pPort.phase with
    | idle => rw [published_idle (hp.trans hs')]
    | run i l =>
      rw [published_middle hu.turn (hp.trans hs')]
      cases l <;> simp [State.publishedAt, hu.p]

/-- A command from a sound state answers a sound state and lowers no cursor. -/
theorem exec_advances (h : s.ReadyInv) (hq : s.params.ok = true) (hx : exec i s = .next t) : s.Advances t := by
  have hp : s.phase = .idle ∨ ∃ l, s.phase = .run i l := by
    rcases exec_next hx with ⟨hp, -⟩ | ⟨l, v, hv, -⟩
    · exact .inl hp
    · exact hv.start.symm.imp (fun ⟨hp, _⟩ => hp) fun ⟨hp, _⟩ => ⟨l, hp⟩
  have hs := exec_sound (i := i) h hq hp
  rwa [hx] at hs

/-- The stream across the step of a command. -/
theorem exec_conserves (h : s.ReadyInv) (hq : s.params.ok = true) (hx : exec i s = .next t) :
    s.Conserves s.published t := by
  obtain ⟨ht, -, hc⟩ := exec_advances h hq hx
  obtain ⟨-, hcp, -⟩ := ht.ring
  have hu := (exec_windowKept h hx).unread
  have hf := exec_frame hx
  cases hturn : s.turn with
  | P =>
    obtain ⟨hp, hd⟩ := exec_publishes h hturn hx
    have hcseq : t.cseq = s.cseq := congrArg Prod.fst (hf.consumerSide (.inr hturn))
    exact stream_conserved hu hc (by rw [hcseq]; exact h.ring.2.1) hp hd
  | C =>
    have hpseq : t.pseq = s.pseq := congrArg Prod.fst (hf.producerSide (.inr hturn))
    obtain ⟨hp, hd⟩ := State.PublishesTo.nil (s := s) (t := t) (by rw [hpseq])
    rw [published_consumer hturn]
    exact stream_conserved hu hc (by rw [← hpseq]; exact hcp) hp hd

/-- The stream where nothing is stored, published or consumed. -/
theorem State.Conserves.of_same (hbuf : t.buf = s.buf) (hmask : t.mask = s.mask) (hp : t.pseq = s.pseq)
    (hc : t.cseq = s.cseq) : s.Conserves [] t := by
  simp [State.Conserves, State.unread, bytesAt_eq, State.at, State.idx, hbuf, hmask, hp, hc]

theorem State.Takes.conserves (h : s.Takes a u) {d : List Byte} (hu : u.Conserves d t) : s.Conserves d t := by
  simpa only [State.Conserves, State.unread, bytesAt_eq, h.at_eq, h.pseq, h.cseq] using hu

end

/-- Settles O51: unread bytes stay where they are (`exec_windowKept`), agent P appends the bytes it publishes
(`exec_publishes`), and agent C moves its cursor over bytes that are there. -/
theorem streamIsConserved : Obligations.StreamIsConserved := by
  intro s t hinv hcfg hr hstep
  have h := hinv.ready hcfg
  rcases step_takes hr hstep with ⟨hs, ht⟩ | ⟨a, lag, rest, u, hs, hu, hx⟩
  · have hpub : s.publishes = [] := by simp only [State.publishes, hs]
    rw [hpub, ht]
    exact State.Conserves.of_same rfl rfl rfl rfl
  rw [publishes_of_run hs hu]
  rcases hx with ⟨hp, ht⟩ | ⟨i, hx⟩
  · rw [published_idle hp]
    refine hu.conserves ?_
    rcases ht with rfl | rfl
    · exact .of_same rfl rfl rfl rfl
    · exact .of_same (by simp) (by simp) (by simp) (by simp)
  · exact hu.conserves (exec_conserves (hu.ready h) (by rw [hu.params]; exact hinv.params) hx)

/-! ### Infinite runs -/

/-- What ends the wait of an agent: the wrap of the producer's claim, the consumer's own cursor (40_producer_commands.md
R96, 41_consumer_commands.md R107). -/
def State.mark (s : State) : Port → Word
  | .P => s.p.wrap
  | .C => s.c.cpos

/-- An answer is ready for the agent's call of the source or the sink (42_macro_commands.md R116, R117). -/
def State.answerReady (s : State) : Port → Prop
  | .P => s.env.source ≠ []
  | .C => s.env.sink ≠ []

/-- What the other agent's steps and the environment leave of agent `a` from `s` to `t`: its phase, its responses and
what it waits for. An answer that is ready stays, and so does `DONE`. -/
structure State.Leaves (s : State) (a : Port) (t : State) : Prop where
  phase : (t.port a).phase = (s.port a).phase
  responses : (t.port a).responses = (s.port a).responses
  mark : t.mark a = s.mark a
  answer : s.answerReady a → t.answerReady a
  done : s.done = true → t.done = true

section
variable {s t v : State} {i : Instr} {a b : Port} {l k : Label} {R : List Response}

theorem State.Leaves.trans (h : s.Leaves a t) (h' : t.Leaves a v) : s.Leaves a v :=
  ⟨h'.phase.trans h.phase, h'.responses.trans h.responses, h'.mark.trans h.mark, h'.answer ∘ h.answer,
    h'.done ∘ h.done⟩

theorem atTurn_leaves (s : State) (a b : Port) (lag : Nat) (rest : List Turn) : s.Leaves a (s.atTurn b lag rest) := by
  cases a <;> exact ⟨rfl, rfl, rfl, id, id⟩

theorem State.Supplied.leaves (h : s.Supplied t) (a : Port) : s.Leaves a t := by
  obtain ⟨sched, source, sink, ps, cs, rfl⟩ := h
  cases a with
  | P => exact ⟨rfl, rfl, rfl, fun hs => List.append_ne_nil_of_left_ne_nil hs _, id⟩
  | C => exact ⟨rfl, rfl, rfl, fun hs => List.append_ne_nil_of_left_ne_nil hs _, id⟩

theorem setPort_leaves (s : State) (hab : b ≠ a) (x : PortState) : s.Leaves a (s.setPort b x) := by
  have hp := setPort_port_ne s b a x hab
  cases b <;> exact ⟨by rw [hp], by rw [hp], by cases a <;> rfl, by cases a <;> exact id, id⟩

/-- A command leaves the other agent alone. -/
theorem exec_leaves (hab : s.turn ≠ a) (h : exec i s = .next t) : s.Leaves a t := by
  have hf := exec_frame h
  have ho := hf.other
  have hdone := (exec_keepsConfiguration i h).done
  cases ht : s.turn with
  | P =>
    rw [ht] at ho hab
    obtain rfl : a = .C := by cases a <;> simp at hab ⊢
    have hc := hf.consumerSide (.inr ht)
    simp only [State.consumerSide, Prod.mk.injEq] at hc
    obtain ⟨-, -, -, hc, hsink, -⟩ := hc
    exact ⟨congrArg _ ho, congrArg _ ho, congrArg CLatches.cpos hc,
      fun hs => by rwa [State.answerReady, hsink], hdone⟩
  | C =>
    rw [ht] at ho hab
    obtain rfl : a = .P := by cases a <;> simp at hab ⊢
    have hp := hf.producerSide (.inr ht)
    simp only [State.producerSide, Prod.mk.injEq] at hp
    obtain ⟨-, -, -, hp, hsource⟩ := hp
    exact ⟨congrArg _ ho, congrArg _ ho, congrArg PLatches.wrap hp,
      fun hs => by rwa [State.answerReady, hsource], hdone⟩

/-- A step of the machine that moves another agent leaves agent `a` alone. -/
theorem step_leaves (hm : s.mover = some b) (hab : b ≠ a) (h : step s = .next t) : s.Leaves a t := by
  rcases step_next h with ⟨hs, -⟩ | ⟨b', lag, rest, hs, h⟩ | ⟨z, id, rest, hs, -⟩
  · simp [State.mover, hs] at hm
  · obtain rfl : b' = b := by simpa [State.mover, hs] using hm
    refine (atTurn_leaves s a b' lag rest).trans ?_
    rcases stepPort_next h with ⟨i, l, -, h⟩ | ⟨-, -, rfl⟩ | ⟨-, pr, rest', -, hx⟩
    · exact exec_leaves hab h
    · exact atTurn_leaves _ _ _ lag rest
    · have ht : (present pr rest' b' (s.atTurn b' lag rest)).turn = b' := by simp [present, State.atTurn]
      refine (setPort_leaves _ hab _).trans (t := present pr rest' b' (s.atTurn b' lag rest)) ?_
      rcases hx with ⟨i, -, h⟩ | ⟨-, rfl⟩
      · exact exec_leaves (by rw [ht]; exact hab) h
      · rw [State.respond, ht]
        exact setPort_leaves _ hab _
  · simp [State.mover, hs] at hm

/-- A load returns no more than the current value (20_memory.md R59). -/
theorem sample_le_otherCursor (s : State) : s.sample.toInt ≤ (s.otherCursor s.turn).toInt := by
  have hf := minInt64_le_toInt (s.port s.turn).floor
  have ho := minInt64_le_toInt (s.otherCursor s.turn)
  have ho' := toInt_le_maxInt64 (s.otherCursor s.turn)
  unfold State.sample observe
  cases s.params.sampleLag with
  | none => exact le_rfl
  | lagging =>
    simp only
    rw [toInt_narrow _ (by omega) (by omega)]
    omega

end

/-- At step `m` of the run `u` agent `a` takes its step at label `l` of `i`, from `v` to `t`. -/
structure Acts (u : Nat → State) (a : Port) (i : Instr) (l : Label) (m : Nat) (v t : State) : Prop where
  before : (u m).Leaves a v
  turn : v.turn = a
  phase : v.phase = .run i l
  done : v.done = (u m).done
  otherCursor : v.otherCursor a = (u m).otherCursor a
  loaded : loadsCursor l = true → (u m).loaded a = some v.sample
  exec : exec i v = .next t
  after : t.Leaves a (u (m + 1))

/-- Agent `a` is at label `l` of `i`, its responses so far `R`. -/
def State.AtLabel (s : State) (a : Port) (i : Instr) (l : Label) (R : List Response) : Prop :=
  (s.port a).phase = .run i l ∧ (s.port a).responses = R

/-- Agent `a` is IDLE and has answered once since its responses were `R`. -/
def State.Answered (s : State) (a : Port) (R : List Response) : Prop :=
  (s.port a).phase = .idle ∧ ∃ r, (s.port a).responses = R ++ [r]

section
variable {u : Nat → State} {v t : State} {i : Instr} {a : Port} {l k : Label} {R : List Response} {m n : Nat}

theorem Acts.port_phase (h : Acts u a i l m v t) : ((u (m + 1)).port a).phase = t.phase := by
  rw [h.after.phase, State.phase, (exec_frame h.exec).turn, h.turn]

/-- The step stays in the command with no response, or ends it with one (30_encoding.md R82). -/
theorem Acts.responses (h : Acts u a i l m v t) :
    ((∃ k, t.phase = .run i k) ∧ ((u (m + 1)).port a).responses = ((u m).port a).responses) ∨
      (t.phase = .idle ∧ ∃ r, ((u (m + 1)).port a).responses = ((u m).port a).responses ++ [r]) := by
  have hr := everyCommandAnswersOnce _ _ _ h.exec
  rwa [(exec_frame h.exec).turn, h.turn, ← h.after.responses, h.before.responses] at hr

theorem Acts.atLabel (h : Acts u a i l m v t) (hR : ((u m).port a).responses = R) (ht : t.phase = .run i k) :
    (u (m + 1)).AtLabel a i k R := by
  rcases h.responses with ⟨-, hr⟩ | ⟨hp, -⟩
  · exact ⟨h.port_phase.trans ht, hr.trans hR⟩
  · cases hp.symm.trans ht

theorem Acts.answered (h : Acts u a i l m v t) (hR : ((u m).port a).responses = R) (ht : t.phase = .idle) :
    (u (m + 1)).Answered a R := by
  rcases h.responses with ⟨⟨k, hp⟩, -⟩ | ⟨-, hr⟩
  · cases hp.symm.trans ht
  · exact ⟨h.port_phase.trans ht, hR ▸ hr⟩

theorem IsRun.acts (hu : IsRun u) (hm : (u m).mover = some a) (hp : ((u m).port a).phase = .run i l) :
    ∃ v t, Acts u a i l m v t := by
  obtain ⟨t, hstep, hs⟩ := hu.steps m
  cases hsched : (u m).env.sched with
  | nil => simp [State.mover, hsched] at hm
  | cons x rest =>
    cases x with
    | rst z id => simp [State.mover, hsched] at hm
    | run b lag =>
      obtain rfl : b = a := by simpa [State.mover, hsched] using hm
      refine ⟨(u m).atTurn b lag rest, t, atTurn_leaves _ _ _ _ _, rfl, ?_, rfl, ?_, fun hl => ?_, ?_, hs.leaves b⟩
      · rw [State.phase, ← hp]
        exact congrArg PortState.phase (atTurn_port _ _ _ _ _)
      · cases b <;> rfl
      · simp [State.loaded, hsched, hp, hl]
      · simpa only [step, hsched, stepPort, atTurn_port, hp] using hstep

theorem IsRun.leaves_step (hu : IsRun u) (hm : (u m).mover ≠ some a) : (u m).Leaves a (u (m + 1)) := by
  obtain ⟨b, hb⟩ := Option.isSome_iff_exists.1 (hu.moves m)
  obtain ⟨t, hstep, hs⟩ := hu.steps m
  exact (step_leaves hb (fun hab => hm (by rw [hb, hab])) hstep).trans (hs.leaves a)

theorem IsRun.leaves_until (hu : IsRun u) (hnm : n ≤ m) (hm : ∀ k, n ≤ k → k < m → (u k).mover ≠ some a) :
    (u n).Leaves a (u m) := by
  induction m, hnm using Nat.le_induction with
  | base => exact ⟨rfl, rfl, rfl, id, id⟩
  | succ m hnm ih =>
    exact (ih fun k h1 h2 => hm k h1 (by omega)).trans (hu.leaves_step (hm m hnm (by omega)))

/-- An agent in the middle of a command takes its next step sooner or later (20_memory.md R67 (a)). -/
theorem Fair.acts (hf : Fair u) (hu : IsRun u) (hp : ((u n).port a).phase = .run i l) :
    ∃ m v t, n ≤ m ∧ (u n).Leaves a (u m) ∧ Acts u a i l m v t := by
  classical
  have hex : ∃ m, n ≤ m ∧ (u m).mover = some a := hf.agents a n (.inl (by rw [hp]; nofun))
  obtain ⟨hnm, hm⟩ := Nat.find_spec hex
  have hleaves : (u n).Leaves a (u (Nat.find hex)) :=
    hu.leaves_until hnm fun k h1 h2 hk => Nat.find_min hex h2 ⟨h1, hk⟩
  obtain ⟨v, t, h⟩ := hu.acts hm (hleaves.phase.trans hp)
  exact ⟨_, v, t, hnm, hleaves, h⟩

end

/-! ### The two waits, step by step -/

/-- The label of a wait at which the other cursor is loaded (40_producer_commands.md R96 G2, 41_consumer_commands.md
R107 K2). -/
def loadLabel : Port → Label
  | .P => .G2
  | .C => .K2

/-- The label of a wait at which `DONE` is loaded (R96 G3, R107 K3). -/
def checkLabel : Port → Label
  | .P => .G3
  | .C => .K3

/-- The label a wait is left to (R96 G4, R107 K4). -/
def leaveLabel : Port → Label
  | .P => .G4
  | .C => .K4

/-- The commands of a port that can wait. -/
def hasWait : Port → Instr → Bool
  | .P, i => isWriting i || isReserving i
  | .C, .read _ => true
  | .C, .peek _ => true
  | .C, .writeTo => true
  | .C, _ => false

/-- The value `v` of the other cursor ends a wait with the mark `w`. -/
def Passes : Port → Word → Int → Prop
  | .P, w, v => w.toInt ≤ v
  | .C, w, v => w.toInt < v

theorem Passes.mono {a : Port} {w : Word} {v v' : Int} (h : Passes a w v) (hv : v ≤ v') : Passes a w v' := by
  cases a with
  | P => exact le_trans h hv
  | C => exact lt_of_lt_of_le h hv

section
variable {s t u : State} {i : Instr} {a : Port} {l k : Label}

theorem goto_phase (hp : s.phase = .run i l) : (s.goto k).phase = .run i k := by
  rw [State.phase, goto_turn, goto_port]
  exact congrArg (Phase.withLabel k) hp

theorem respond_phase (s : State) (r : Response) : (s.respond r).phase = .idle := by
  rw [State.phase, respond_turn, respond_port]

@[simp] theorem setP_phase (s : State) (x : PLatches) : (s.setP x).phase = s.phase :=
  congrArg PortState.phase (setP_port s x s.turn)

@[simp] theorem setC_phase (s : State) (x : CLatches) : (s.setC x).phase = s.phase :=
  congrArg PortState.phase (setC_port s x s.turn)

@[simp] theorem setGate_phase (s : State) (w : Word) : (s.setGate w).phase = s.phase := by
  rw [State.phase, State.phase, setGate_turn]
  cases s.turn <;> rfl

@[simp] theorem noteSample_phase (s : State) : s.noteSample.phase = s.phase := by
  rw [State.phase, State.noteSample, setPort_turn, port_setPort]
  rfl

/-- What an answer is after which the agent is IDLE. -/
def EndsIdle (f : State → Out) : Prop := ∀ ⦃u t⦄, f u = .next t → t.phase = .idle

theorem respond_endsIdle (r : Response) : EndsIdle (respond r) := fun u _ h => respond_eq_next.1 h ▸ respond_phase u r

/-- A waiting producer command takes a step of its gate (R92, R94, R118, R119). -/
theorem gateStep_of_exec (hi : hasWait .P i = true) (hl : l = .G2 ∨ l = .G3) (hp : s.phase = .run i l)
    (h : exec i s = .next t) : ∃ after onEos, EndsIdle onEos ∧ gateStep after onEos l s = .next t := by
  rcases hl with rfl | rfl
  all_goals
    cases i with
    | write n =>
      exact ⟨.W3, respond ⟨.eos, 0, 0, []⟩, respond_endsIdle _, command_middle (body := writeStep respond) hp h⟩
    | rsve =>
      exact ⟨.V3, respond ⟨.eos, 0, 0, []⟩, respond_endsIdle _, command_middle (body := rsveStep respond) hp h⟩
    | readFrom =>
      exact ⟨.V3, readFromAfterRsve ⟨.eos, 0, 0, []⟩, fun u _ hu => respond_endsIdle ⟨.eos, u.p.total, 0, []⟩ hu,
        command_middle (body := readFromStep) hp h⟩
    | readFromB =>
      exact ⟨.W3, readFromBAfterWrite ⟨.eos, 0, 0, []⟩,
        fun u _ hu => respond_endsIdle ⟨.eos, (addTotalP 0 u).p.total, 0, []⟩ hu,
        command_middle (body := readFromBStep) hp h⟩
    | _ => cases hi

/-- A waiting consumer command takes a step of its wait (R108, R110, R120). -/
theorem cwaitStep_of_exec (hi : hasWait .C i = true) (hl : l = .K2 ∨ l = .K3) (hp : s.phase = .run i l)
    (h : exec i s = .next t) : ∃ after onEos, EndsIdle onEos ∧ cwaitStep after onEos l s = .next t := by
  rcases hl with rfl | rfl
  all_goals
    cases i with
    | read cap =>
      exact ⟨.A3, respond ⟨.eos, 0, 0, []⟩, respond_endsIdle _, command_middle (body := readStep respond) hp h⟩
    | peek n =>
      exact ⟨.B3, respond ⟨.eos, 0, 0, []⟩, respond_endsIdle _, command_middle (body := peekStep respond) hp h⟩
    | writeTo =>
      exact ⟨.B3, writeToAfterPeek ⟨.eos, 0, 0, []⟩, fun u _ hu => respond_endsIdle ⟨.eos, u.c.total, 0, []⟩ hu,
        command_middle (body := writeToStep) hp h⟩
    | _ => cases hi

/-- The load of a wait: the agent leaves the wait when the value passes, else it looks at `DONE` next. -/
theorem wait_load (hi : hasWait a i = true) (hp : s.phase = .run i (loadLabel a))
    (h : exec i s = .next t) :
    t.mark a = s.mark a ∧
      ((Passes a (s.mark a) s.sample.toInt ∧ t.phase = .run i (leaveLabel a)) ∨
        (¬ Passes a (s.mark a) s.sample.toInt ∧ t.phase = .run i (checkLabel a))) := by
  cases a with
  | P =>
    change s.phase = .run i .G2 at hp
    obtain ⟨after, onEos, -, h⟩ := gateStep_of_exec hi (.inl rfl) hp h
    rcases gateStep_next h with
      ⟨⟨⟩, -⟩ | ⟨-, hw, rfl⟩ | ⟨-, hw, rfl⟩ | ⟨⟨⟩, -⟩ | ⟨⟨⟩, -⟩ | ⟨⟨⟩, -⟩
    · exact ⟨by simp [State.mark], .inl ⟨hw, goto_phase (by simpa using hp)⟩⟩
    · exact ⟨by simp [State.mark], .inr ⟨not_le.2 hw, goto_phase (by simpa using hp)⟩⟩
  | C =>
    change s.phase = .run i .K2 at hp
    obtain ⟨after, onEos, -, h⟩ := cwaitStep_of_exec hi (.inl rfl) hp h
    rcases cwaitStep_next h with ⟨⟨⟩, -⟩ | ⟨-, rfl⟩ | ⟨⟨⟩, -⟩ | ⟨⟨⟩, -⟩ | ⟨⟨⟩, -⟩
    refine ⟨by simp [State.mark], ?_⟩
    rw [goto_phase (l := .K2) (by simpa using hp)]
    by_cases hw : s.c.cpos.toInt < s.sample.toInt
    · exact .inl ⟨hw, by simp [hw, leaveLabel]⟩
    · exact .inr ⟨hw, by simp [hw, checkLabel]⟩

/-- The look at `DONE` of a wait: the agent answers when it is set, else it loads the other cursor again. -/
theorem wait_check (hi : hasWait a i = true) (hp : s.phase = .run i (checkLabel a))
    (h : exec i s = .next t) :
    (s.done = true ∧ t.phase = .idle) ∨
      (s.done = false ∧ t.mark a = s.mark a ∧ t.phase = .run i (loadLabel a)) := by
  cases a with
  | P =>
    obtain ⟨after, onEos, he, h⟩ := gateStep_of_exec hi (.inr rfl) hp h
    rcases gateStep_next h with
      ⟨⟨⟩, -⟩ | ⟨⟨⟩, -⟩ | ⟨⟨⟩, -⟩ | ⟨-, hd, h⟩ | ⟨-, hd, rfl⟩ | ⟨⟨⟩, -⟩
    · exact .inl ⟨hd, he h⟩
    · exact .inr ⟨hd, by simp [State.mark], goto_phase hp⟩
  | C =>
    obtain ⟨after, onEos, he, h⟩ := cwaitStep_of_exec hi (.inr rfl) hp h
    rcases cwaitStep_next h with ⟨⟨⟩, -⟩ | ⟨⟨⟩, -⟩ | ⟨-, hd, h⟩ | ⟨-, hd, rfl⟩ | ⟨⟨⟩, -⟩
    · exact .inl ⟨hd, he h⟩
    · exact .inr ⟨hd, by simp [State.mark], goto_phase (s := s.bumpCwait) hp⟩

end

/-! ### Waiting on a run -/

/-- Agent `a` is in the wait of `i` with the mark `w`, its responses so far `R`. -/
structure State.Waits (s : State) (a : Port) (i : Instr) (w : Word) (R : List Response) : Prop where
  phase : (s.port a).phase = .run i (loadLabel a) ∨ (s.port a).phase = .run i (checkLabel a)
  mark : s.mark a = w
  responses : (s.port a).responses = R

/-- Agent `a` has left the wait of `i`: for the label after it, or with an answer. -/
def State.LeftWait (s : State) (a : Port) (i : Instr) (R : List Response) : Prop :=
  s.AtLabel a i (leaveLabel a) R ∨ s.Answered a R

/-- An agent outside its own steps keeps waiting. -/
theorem State.Waits.leaves {s t : State} {a : Port} {i : Instr} {w : Word} {R : List Response}
    (h : s.Waits a i w R) (hl : s.Leaves a t) : t.Waits a i w R :=
  ⟨by rw [hl.phase]; exact h.phase, hl.mark.trans h.mark, hl.responses.trans h.responses⟩

section
variable {u : Nat → State} {v t : State} {i : Instr} {a : Port} {l k : Label} {w : Word} {R : List Response} {m n : Nat}

/-- A step of a waiting agent at its load: out of the wait if the value passes, else to the look at `DONE`. -/
theorem Acts.wait_load (h : Acts u a i (loadLabel a) m v t) (hi : hasWait a i = true) (hw : (u m).mark a = w)
    (hR : ((u m).port a).responses = R) :
    (Passes a w v.sample.toInt ∧ (u (m + 1)).LeftWait a i R) ∨
      (¬ Passes a w v.sample.toInt ∧ (u (m + 1)).Waits a i w R ∧ (u (m + 1)).AtLabel a i (checkLabel a) R) := by
  obtain ⟨hmark, hnext⟩ := Machine.wait_load hi h.phase h.exec
  rw [h.before.mark, hw] at hmark hnext
  rcases hnext with ⟨hpass, hp⟩ | ⟨hpass, hp⟩
  · exact .inl ⟨hpass, .inl (h.atLabel hR hp)⟩
  · have hat := h.atLabel hR hp
    exact .inr ⟨hpass, ⟨.inr hat.1, h.after.mark.trans hmark, hat.2⟩, hat⟩

/-- A step of a waiting agent at its look at `DONE`: an answer if it is set, else back to the load. -/
theorem Acts.wait_check (h : Acts u a i (checkLabel a) m v t) (hi : hasWait a i = true) (hw : (u m).mark a = w)
    (hR : ((u m).port a).responses = R) :
    ((u m).done = true ∧ (u (m + 1)).Answered a R) ∨
      ((u m).done = false ∧ (u (m + 1)).Waits a i w R ∧ (u (m + 1)).AtLabel a i (loadLabel a) R) := by
  have hcheck := Machine.wait_check hi h.phase h.exec
  rw [h.done] at hcheck
  rcases hcheck with ⟨hd, hp⟩ | ⟨hd, hmark, hp⟩
  · exact .inl ⟨hd, h.answered hR hp⟩
  · have hat := h.atLabel hR hp
    exact .inr ⟨hd, ⟨.inl hat.1, by rw [h.after.mark, hmark, h.before.mark, hw], hat.2⟩, hat⟩

/-- From one state of the run to the next a waiting agent goes on waiting or leaves the wait; it leaves only when `DONE`
is set or the other cursor passes. -/
theorem IsRun.wait_step (hu : IsRun u) (hi : hasWait a i = true) (h : (u m).Waits a i w R) :
    (u (m + 1)).Waits a i w R ∨
      ((u (m + 1)).LeftWait a i R ∧ ((u m).done = true ∨ Passes a w ((u m).otherCursor a).toInt)) := by
  by_cases hm : (u m).mover = some a
  · rcases h.phase with hp | hp
    · obtain ⟨v, t, hact⟩ := hu.acts hm hp
      rcases hact.wait_load hi h.mark h.responses with ⟨hpass, hleft⟩ | ⟨-, hwait, -⟩
      · have hle := sample_le_otherCursor v
        rw [hact.turn, hact.otherCursor] at hle
        exact .inr ⟨hleft, .inr (hpass.mono hle)⟩
      · exact .inl hwait
    · obtain ⟨v, t, hact⟩ := hu.acts hm hp
      rcases hact.wait_check hi h.mark h.responses with ⟨hd, hans⟩ | ⟨-, hwait, -⟩
      · exact .inr ⟨.inr hans, .inl hd⟩
      · exact .inl hwait
  · exact .inl (h.leaves (hu.leaves_step hm))

/-- While `DONE` is not set and the other cursor does not pass, the agent waits. -/
theorem IsRun.waits_while (hu : IsRun u) (hi : hasWait a i = true) (h : (u n).Waits a i w R)
    (hb : ∀ m, n ≤ m → (u m).done = false ∧ ¬ Passes a w ((u m).otherCursor a).toInt) (hm : n ≤ m) :
    (u m).Waits a i w R := by
  induction m, hm using Nat.le_induction with
  | base => exact h
  | succ m hm ih =>
    obtain ⟨hd, hpass⟩ := hb m hm
    rcases hu.wait_step hi ih with hwait | ⟨-, hend | hend⟩
    · exact hwait
    · exact absurd (hd.symm.trans hend) nofun
    · exact absurd hend hpass

/-- An agent that never leaves its wait waits. -/
theorem IsRun.waits_unless_left (hu : IsRun u) (hi : hasWait a i = true) (h : (u n).Waits a i w R)
    (hb : ∀ m, n ≤ m → ¬ (u m).LeftWait a i R) (hm : n ≤ m) : (u m).Waits a i w R := by
  induction m, hm using Nat.le_induction with
  | base => exact h
  | succ m hm ih => exact (hu.wait_step hi ih).resolve_right fun ⟨hl, _⟩ => hb (m + 1) (by omega) hl

section
variable (hu : IsRun u) (hf : Fair u) (hi : hasWait a i = true)
include hu hf hi

/-- A waiting agent that is about to look at a `DONE` that is set answers. -/
theorem check_closed_left (h : (u n).Waits a i w R) (hp : ((u n).port a).phase = .run i (checkLabel a))
    (hd : (u n).done = true) : ∃ m, n ≤ m ∧ (u m).LeftWait a i R := by
  obtain ⟨m, v, t, hnm, hl, hact⟩ := hf.acts hu hp
  have hw := h.leaves hl
  rcases hact.wait_check hi hw.mark hw.responses with ⟨-, hans⟩ | ⟨hd', -⟩
  · exact ⟨m + 1, by omega, .inr hans⟩
  · exact absurd (hd'.symm.trans (hl.done hd)) nofun

/-- A waiting agent leaves its wait when `DONE` is set (43_common_commands.md R130). -/
theorem closed_wait_left (h : (u n).Waits a i w R) (hd : (u n).done = true) :
    ∃ m, n ≤ m ∧ (u m).LeftWait a i R := by
  rcases h.phase with hp | hp
  · obtain ⟨m, v, t, hnm, hl, hact⟩ := hf.acts hu hp
    have hw := h.leaves hl
    rcases hact.wait_load hi hw.mark hw.responses with ⟨-, hleft⟩ | ⟨-, hwait, hat⟩
    · exact ⟨m + 1, by omega, hleft⟩
    · have hd' : (u (m + 1)).done = true :=
        hact.after.done ((exec_keepsConfiguration i hact.exec).done (hact.before.done (hl.done hd)))
      obtain ⟨m', hm', hleft⟩ := check_closed_left hu hf hi hwait hat.1 hd'
      exact ⟨m', by omega, hleft⟩
  · exact check_closed_left hu hf hi h hp hd

omit hi in
/-- An agent about to load the other cursor does so sooner or later. -/
theorem load_comes (hp : ((u n).port a).phase = .run i (loadLabel a)) :
    ∃ m, n ≤ m ∧ ((u m).loaded a).isSome = true := by
  obtain ⟨m, v, t, hnm, -, hact⟩ := hf.acts hu hp
  exact ⟨m, hnm, by rw [hact.loaded (by cases a <;> rfl)]; rfl⟩

/-- An agent that never leaves its wait loads the other cursor again and again. -/
theorem loads_again (h : (u n).Waits a i w R) (hb : ∀ m, n ≤ m → ¬ (u m).LeftWait a i R) :
    ∃ m, n ≤ m ∧ ((u m).loaded a).isSome = true := by
  rcases h.phase with hp | hp
  · exact load_comes hu hf hp
  · obtain ⟨m, v, t, hnm, hl, hact⟩ := hf.acts hu hp
    have hw := h.leaves hl
    rcases hact.wait_check hi hw.mark hw.responses with ⟨-, hans⟩ | ⟨-, -, hat⟩
    · exact absurd (.inr hans) (hb (m + 1) (by omega))
    · obtain ⟨m', hm', hload⟩ := load_comes hu hf hat.1
      exact ⟨m', by omega, hload⟩

omit hu hf hi in
/-- What a step must be that loads the other cursor. -/
theorem loaded_eq_some {s : State} {x : Word} (h : s.loaded a = some x) :
    s.mover = some a ∧ ∃ j l, (s.port a).phase = .run j l ∧ loadsCursor l = true := by
  unfold State.loaded at h
  split at h
  · next b lag rest hs =>
    split at h
    · next j l hp =>
      split at h
      · next hb => exact ⟨by simp [State.mover, hs, hb.1], j, l, hp, hb.2⟩
      · cases h
    · cases h
  · cases h

/-- A waiting agent leaves its wait once the other cursor has passed: its loads return that value, or a later one (R67
(b)). -/
theorem passed_wait_left (h : (u n).Waits a i w R) (hpass : Passes a w ((u n).otherCursor a).toInt) :
    ∃ m, n ≤ m ∧ (u m).LeftWait a i R := by
  by_contra hnever
  have hb : ∀ m, n ≤ m → ¬ (u m).LeftWait a i R := fun m hm hl => hnever ⟨m, hm, hl⟩
  have hwaits : ∀ m, n ≤ m → (u m).Waits a i w R := fun m hm => hu.waits_unless_left hi h hb hm
  have hloads : ∀ k, ∃ m, k ≤ m ∧ ((u m).loaded a).isSome = true := fun k => by
    obtain ⟨m, hm, hload⟩ := loads_again hu hf hi (hwaits (max n k) (by omega)) fun m hm => hb m (by omega)
    exact ⟨m, by omega, hload⟩
  obtain ⟨m, x, hnm, hx, hle⟩ := hf.loads a n hloads
  obtain ⟨hmover, j, l, hp, hl⟩ := loaded_eq_some hx
  have hw := hwaits m hnm
  have hp' : ((u m).port a).phase = .run i (loadLabel a) := by
    refine hw.phase.resolve_right fun hc => ?_
    cases hp.symm.trans hc
    cases a <;> cases hl
  obtain ⟨v, t, hact⟩ := hu.acts hmover hp'
  have hv : v.sample = x := Option.some.inj ((hact.loaded (by cases a <;> rfl)).symm.trans hx)
  rcases hact.wait_load hi hw.mark hw.responses with ⟨-, hleft⟩ | ⟨hnot, -⟩
  · exact hb (m + 1) (by omega) hleft
  · exact hnot (hpass.mono (by rw [hv]; exact hle))

/-- Under the fairness premises a wait ends once `DONE` is set or the other cursor has passed (R67). -/
theorem wait_left (h : (u n).Waits a i w R)
    (hend : ∃ m, n ≤ m ∧ ((u m).done = true ∨ Passes a w ((u m).otherCursor a).toInt)) :
    ∃ m, n ≤ m ∧ (u m).LeftWait a i R := by
  by_contra hnever
  obtain ⟨m, hnm, hend⟩ := hend
  have hw := hu.waits_unless_left hi h (fun k hk hl => hnever ⟨k, hk, hl⟩) hnm
  obtain ⟨k, hk, hl⟩ : ∃ k, m ≤ k ∧ (u k).LeftWait a i R := by
    rcases hend with hd | hpass
    · exact closed_wait_left hu hf hi hw hd
    · exact passed_wait_left hu hf hi hw hpass
  exact hnever ⟨k, by omega, hl⟩

end

end

/-! ### After the wait -/

section
variable {u : Nat → State} {s t v : State} {i : Instr} {a : Port} {l k : Label} {R : List Response} {m n : Nat}

/-- Every step of command `i` at label `l` leads to phase `p`. -/
def OneWayOn (i : Instr) (l : Label) (p : Phase) : Prop :=
  ∀ ⦃s t : State⦄, s.phase = .run i l → exec i s = .next t → t.phase = p

section
variable (hu : IsRun u) (hf : Fair u)
include hu hf

/-- An agent with one way on takes it sooner or later (20_memory.md R67 (a)). -/
theorem Fair.goes_on (hstep : OneWayOn i l (.run i k)) (h : ∃ m, n ≤ m ∧ (u m).AtLabel a i l R) :
    ∃ m, n ≤ m ∧ (u m).AtLabel a i k R := by
  obtain ⟨m, hnm, hp, hR⟩ := h
  obtain ⟨m', v, t, hm, hl, hact⟩ := hf.acts hu hp
  exact ⟨m' + 1, by omega, hact.atLabel (hl.responses.trans hR) (hstep hact.phase hact.exec)⟩

/-- An agent whose next step answers answers sooner or later. -/
theorem Fair.answers (hstep : OneWayOn i l .idle) (h : ∃ m, n ≤ m ∧ (u m).AtLabel a i l R) :
    ∃ m, n ≤ m ∧ (u m).Answered a R := by
  obtain ⟨m, hnm, hp, hR⟩ := h
  obtain ⟨m', v, t, hm, hl, hact⟩ := hf.acts hu hp
  exact ⟨m' + 1, by omega, hact.answered (hl.responses.trans hR) (hstep hact.phase hact.exec)⟩

end

theorem phase_of_goto (hp : s.phase = .run i l) (hu : v.phase = s.phase) (h : goto k v = .next t) :
    t.phase = .run i k := by
  obtain rfl := goto_eq_next.1 h
  exact goto_phase (hu.trans hp)

theorem setBuf_phase (s : State) (m : Memory) : (s.setBuf m).phase = s.phase := by
  rw [State.phase, State.phase, setBuf_turn]
  cases s.turn <;> rfl

theorem write_G4 (n : Word) : OneWayOn (.write n) .G4 (.run (.write n) .W3) := fun _ _ hp h =>
  phase_of_goto hp rfl (command_middle (body := writeStep respond) hp h)

theorem write_W3 (n : Word) : OneWayOn (.write n) .W3 (.run (.write n) .W4) := fun s _ hp h => by
  rcases writeStep_next (command_middle (body := writeStep respond) hp h) with
    ⟨⟨⟩, -⟩ | ⟨⟨⟩, -⟩ | ⟨-, m, -, rfl⟩ | ⟨⟨⟩, -⟩ | h
  · exact goto_phase ((setBuf_phase s m).trans hp)
  · cases h

theorem write_W4 (n : Word) : OneWayOn (.write n) .W4 .idle := fun _ _ hp h =>
  respond_endsIdle _ (command_middle (body := writeStep respond) hp h)

theorem rsve_G4 : OneWayOn .rsve .G4 (.run .rsve .V3) := fun _ _ hp h =>
  phase_of_goto hp rfl (command_middle (body := rsveStep respond) hp h)

theorem rsve_V3 : OneWayOn .rsve .V3 .idle := fun _ _ hp h =>
  respond_endsIdle _ (command_middle (body := rsveStep respond) hp h)

theorem read_K4 (n : Word) : OneWayOn (.read n) .K4 (.run (.read n) .A3) := fun _ _ hp h =>
  phase_of_goto hp (setC_phase _ _) (command_middle (body := readStep respond) hp h)

theorem read_A3 (n : Word) : OneWayOn (.read n) .A3 (.run (.read n) .A4) := fun s _ hp h => by
  rcases readStep_next (command_middle (body := readStep respond) hp h) with
    ⟨⟨⟩, -⟩ | ⟨⟨⟩, -⟩ | ⟨-, m, out, -, -, rfl⟩ | ⟨⟨⟩, -⟩ | h
  · exact goto_phase ((setC_phase s _).trans hp)
  · cases h

theorem read_A4 (n : Word) : OneWayOn (.read n) .A4 .idle := fun _ _ hp h =>
  respond_endsIdle _ (command_middle (body := readStep respond) hp h)

theorem peek_K4 (n : Word) : OneWayOn (.peek n) .K4 (.run (.peek n) .B3) := fun _ _ hp h =>
  phase_of_goto hp (setC_phase _ _) (command_middle (body := peekStep respond) hp h)

theorem peek_B3 (n : Word) : OneWayOn (.peek n) .B3 .idle := fun s _ hp h => by
  rcases peekStep_next (command_middle (body := peekStep respond) hp h) with
    ⟨⟨⟩, -⟩ | ⟨⟨⟩, -⟩ | ⟨-, m, start, s', -, -, -, ⟨-, h⟩ | ⟨-, -, view, -, h⟩ | ⟨-, -, view, tmp, -, h⟩⟩ | h
  · exact respond_endsIdle _ h
  · exact respond_endsIdle _ h
  · exact respond_endsIdle _ h
  · cases h

section
variable (hu : IsRun u) (hf : Fair u)
include hu hf

/-- A WRITE or RSVE that has left its wait answers. -/
theorem producer_answers (hi : (∃ k, i = .write k) ∨ i = .rsve) (h : ∃ m, n ≤ m ∧ (u m).LeftWait .P i R) :
    ∃ m, n ≤ m ∧ (u m).Answered .P R := by
  obtain ⟨m, hm, hleft | hans⟩ := h
  · rcases hi with ⟨k, rfl⟩ | rfl
    · exact hf.answers hu (write_W4 k) (hf.goes_on hu (write_W3 k) (hf.goes_on hu (write_G4 k) ⟨m, hm, hleft⟩))
    · exact hf.answers hu rsve_V3 (hf.goes_on hu rsve_G4 ⟨m, hm, hleft⟩)
  · exact ⟨m, hm, hans⟩

/-- A READ or PEEK that has left its wait answers. -/
theorem consumer_answers (hi : (∃ cap, i = .read cap) ∨ ∃ k, i = .peek k) (h : ∃ m, n ≤ m ∧ (u m).LeftWait .C i R) :
    ∃ m, n ≤ m ∧ (u m).Answered .C R := by
  obtain ⟨m, hm, hleft | hans⟩ := h
  · rcases hi with ⟨k, rfl⟩ | ⟨k, rfl⟩
    · exact hf.answers hu (read_A4 k) (hf.goes_on hu (read_A3 k) (hf.goes_on hu (read_K4 k) ⟨m, hm, hleft⟩))
    · exact hf.answers hu (peek_B3 k) (hf.goes_on hu (peek_K4 k) ⟨m, hm, hleft⟩)
  · exact ⟨m, hm, hans⟩

end

/-! ### Outstanding calls -/

/-- Command `i` of agent `a` at label `l` is in a call: it stays there while no answer is ready, and goes on to `k` with
one (42_macro_commands.md R116, R117). -/
def CallsAt (a : Port) (i : Instr) (l k : Label) : Prop :=
  ∀ ⦃s t : State⦄, s.phase = .run i l → exec i s = .next t →
    (¬ s.answerReady a ∧ t.phase = .run i l) ∨ t.phase = .run i k

@[simp] theorem setEnv_phase (s : State) (e : Env) : (s.setEnv e).phase = s.phase := by
  rw [State.phase, State.phase, setEnv_turn]
  cases s.turn <;> rfl

theorem srcRead_phase {max : Int} (hp : s.phase = .run i l) (h : srcRead max k s = .next t) :
    (¬ s.answerReady .P ∧ t.phase = .run i l) ∨ t.phase = .run i k := by
  rcases srcRead_next h with ⟨hs, rfl⟩ | ⟨x, rest, -, -, rfl⟩
  · exact .inl ⟨fun hr => hr hs, hp⟩
  · exact .inr (goto_phase (by simpa using hp))

theorem readFrom_calls : CallsAt .P .readFrom .F2 .U1 := fun _ _ hp h =>
  srcRead_phase hp (command_middle (body := readFromStep) hp h)

theorem readFromB_calls : CallsAt .P .readFromB .E1 .W1 := fun _ _ hp h =>
  srcRead_phase hp (command_middle (body := readFromBStep) hp h)

theorem writeTo_calls : CallsAt .C .writeTo .T2 .T3 := fun s _ hp h => by
  rcases sinkWrite_next (command_middle (body := writeToStep) hp h) with ⟨hs, rfl⟩ | ⟨x, rest, -, -, rfl⟩
  · exact .inl ⟨fun hr => hr hs, hp⟩
  · exact .inr (goto_phase (by simpa using hp))

/-- A call in which the answer comes ends (R67 (c)). -/
theorem Fair.call_ends (hf : Fair u) (hu : IsRun u) (hcall : CallsAt a i l k) (hp : ((u n).port a).phase = .run i l)
    (hready : ∃ m, n ≤ m ∧ (u m).answerReady a) : ∃ m, n ≤ m ∧ ((u m).port a).phase = .run i k := by
  by_contra hnever
  have hstay : ∀ m, n ≤ m → ((u m).port a).phase = .run i l := fun m hm => by
    induction m, hm using Nat.le_induction with
    | base => exact hp
    | succ m hm ih =>
      by_cases hmover : (u m).mover = some a
      · obtain ⟨v, t, hact⟩ := hu.acts hmover ih
        rcases hcall hact.phase hact.exec with ⟨-, ht⟩ | ht
        · exact hact.port_phase.trans ht
        · exact absurd ⟨m + 1, by omega, hact.port_phase.trans ht⟩ hnever
      · exact (hu.leaves_step hmover).phase.trans ih
  obtain ⟨m, hm, hr⟩ := hready
  obtain ⟨m', v, t, hm', hl, hact⟩ := hf.acts hu (hstay m hm)
  rcases hcall hact.phase hact.exec with ⟨hnot, -⟩ | ht
  · exact hnot (hact.before.answer (hl.answer hr))
  · exact hnever ⟨m' + 1, by omega, hact.port_phase.trans ht⟩

end

/-- Settles O60: a wait is left once `DONE` is set or a load returns a value that ends it (`wait_left`), and what
follows it has one way on; while neither happens the wait goes round (`IsRun.waits_while`). -/
theorem waitingCommandsComplete : Obligations.WaitingCommandsComplete := by
  refine ⟨fun u hu hf n => ⟨fun i hi hp hend => ?_, fun i hi hp hend => ?_, fun hp => ?_, fun hp => ?_, fun hp => ?_⟩,
    fun u hu n => ⟨fun i hi hp hb m hm => ?_, fun i hi hp hb m hm => ?_⟩⟩
  · have hwait : hasWait .P i = true := by rcases hi with ⟨k, rfl⟩ | rfl <;> rfl
    obtain ⟨m, hm, hidle, r, hr⟩ := producer_answers hu hf hi (wait_left hu hf hwait ⟨hp, rfl, rfl⟩ hend)
    exact ⟨m, r, hm, hidle, hr⟩
  · have hwait : hasWait .C i = true := by rcases hi with ⟨k, rfl⟩ | ⟨k, rfl⟩ <;> rfl
    obtain ⟨m, hm, hidle, r, hr⟩ := consumer_answers hu hf hi (wait_left hu hf hwait ⟨hp, rfl, rfl⟩ hend)
    exact ⟨m, r, hm, hidle, hr⟩
  · exact hf.call_ends hu readFrom_calls hp (hf.source n (.inl hp))
  · exact hf.call_ends hu readFromB_calls hp (hf.source n (.inr hp))
  · exact hf.call_ends hu writeTo_calls hp (hf.sink n hp)
  · have hwait : hasWait .P i = true := Bool.or_eq_true_iff.2 hi
    have hw : (u n).Waits .P i (u n).p.wrap (u n).pPort.responses := ⟨hp, rfl, rfl⟩
    exact (hu.waits_while hwait hw (fun k hk => ⟨(hb k hk).1, not_le.2 (hb k hk).2⟩) hm).phase
  · have hwait : hasWait .C i = true := by rcases hi with ⟨k, rfl⟩ | ⟨k, rfl⟩ | rfl <;> rfl
    have hw : (u n).Waits .C i (u n).c.cpos (u n).cPort.responses := ⟨hp, rfl, rfl⟩
    exact (hu.waits_while hwait hw (fun k hk => ⟨(hb k hk).1, not_lt.2 (hb k hk).2⟩) hm).phase

end Sys2Proof.Machine
end

section
/-! PROOFS, family 30_encoding.md. Words and commands, the answer to an illegal word, the statuses a response carries,
and the view of PEEK. -/

namespace Sys2Proof

/-! ### Words and commands -/

/-- The reserved opcodes (30_encoding.md R79). -/
def ReservedOp (op : BitVec 4) : Prop := op = 0x0 ∨ op = 0x7 ∨ op = 0xB ∨ op = 0xF

/-- The opcodes of the commands that take no operand (R80). -/
def NoOperandOp (op : BitVec 4) : Prop :=
  op = 0x2 ∨ op = 0x8 ∨ op = 0x9 ∨ op = 0xA ∨ op = 0xC ∨ op = 0xD ∨ op = 0xE

@[simp] theorem opField_append (op : BitVec 4) (n : Word) : opField (op ++ n) = op :=
  BitVec.extractLsb'_append_eq_left

@[simp] theorem cntField_append (op : BitVec 4) (n : Word) : cntField (op ++ n) = n :=
  BitVec.extractLsb'_append_eq_right

/-- The two fields are the whole word (R72). -/
theorem opField_append_cntField (w : BitVec 68) : opField w ++ cntField w = w :=
  (BitVec.extractLsb'_append_extractLsb'_eq_extractLsb' (start₁ := 0) (len₁ := 64) (len₂ := 4) rfl).trans
    BitVec.extractLsb'_eq_self

/-- A command that takes no operand is decoded exactly from a zero count (R80). -/
theorem noOperand_eq_instr {i j : Instr} {w : BitVec 68} : noOperand j w = .instr i ↔ j = i ∧ cntField w = 0 := by
  unfold noOperand
  split
  · next hcnt => simp [hcnt]
  · next hcnt => exact ⟨nofun, fun h => absurd h.2 hcnt⟩

theorem noOperand_eq_illegal {j : Instr} {r : Reject} {w : BitVec 68} (h : noOperand j w = .illegal r) :
    cntField w ≠ 0 ∧ r = .countNotZero (opField w) := by
  unfold noOperand at h
  split at h
  · cases h
  · next hcnt => exact ⟨hcnt, (Decoded.illegal.inj h).symm⟩

/-- A word decodes to the command that has its opcode and its count (R75, R80). -/
theorem decode_eq_instr_iff {w : BitVec 68} {i : Instr} :
    decode w = .instr i ↔ opcode i = opField w ∧ i.count = cntField w := by
  constructor
  · intro h
    unfold decode at h
    split at h
    -- the opcodes that take no operand, then the reserved ones, then those with a count
    case h_2 hop | h_7 hop | h_8 hop | h_9 hop | h_10 hop | h_11 hop | h_12 hop =>
      obtain ⟨rfl, hcnt⟩ := noOperand_eq_instr.1 h
      exact ⟨BitVec.eq_of_toNat_eq hop.symm, hcnt.symm⟩
    case h_13 => cases h
    all_goals
      next hop =>
      cases h
      exact ⟨BitVec.eq_of_toNat_eq hop.symm, rfl⟩
  · rintro ⟨hop, hcnt⟩
    unfold decode
    rw [← hop]
    cases i with
    | write n | publ n | read n | peek n | commit n =>
      obtain rfl : n = cntField w := hcnt
      rfl
    | _ => exact noOperand_eq_instr.2 ⟨rfl, hcnt.symm⟩

/-- Why a word decodes to no command: its opcode is reserved, or takes no operand and has a count (R79, R80). -/
theorem decode_eq_illegal {w : BitVec 68} {r : Reject} (h : decode w = .illegal r) :
    (ReservedOp (opField w) ∧ r = .reservedOpcode (opField w)) ∨
      (NoOperandOp (opField w) ∧ cntField w ≠ 0 ∧ r = .countNotZero (opField w)) := by
  unfold decode at h
  split at h
  -- the reserved opcodes, then those that take no operand; the rest decode
  case h_13 =>
    refine .inl ⟨?_, (Decoded.illegal.inj h).symm⟩
    have hlt := (opField w).isLt
    simp only [imp_false] at *
    simp only [ReservedOp, BitVec.toNat_eq, BitVec.reduceToNat]
    omega
  case h_2 hop | h_7 hop | h_8 hop | h_9 hop | h_10 hop | h_11 hop | h_12 hop =>
    refine .inr ⟨?_, noOperand_eq_illegal h⟩
    simp [NoOperandOp, BitVec.toNat_eq, hop]
  all_goals cases h

/-- A command's opcode is never reserved. -/
theorem not_reservedOp_opcode (i : Instr) : ¬ ReservedOp (opcode i) := by
  cases i <;> simp [ReservedOp, opcode]

/-- A command whose opcode takes no operand has the count 0. -/
theorem count_eq_zero_of_noOperandOp {i : Instr} (h : NoOperandOp (opcode i)) : i.count = 0 := by
  cases i with
  | write n | publ n | read n | peek n | commit n => simp [NoOperandOp, opcode] at h
  | _ => rfl

theorem not_noOperandOp_with_count (i : Instr) : ¬ (NoOperandOp (opcode i) ∧ i.count ≠ 0) :=
  fun ⟨hop, hcnt⟩ => hcnt (count_eq_zero_of_noOperandOp hop)

/-- The words that decode to no command (R79, R80). -/
theorem decode_illegal_iff {w : BitVec 68} :
    (∃ r, decode w = .illegal r) ↔ ReservedOp (opField w) ∨ (NoOperandOp (opField w) ∧ cntField w ≠ 0) := by
  refine ⟨fun ⟨r, h⟩ => (decode_eq_illegal h).imp And.left fun ⟨hop, hcnt, _⟩ => ⟨hop, hcnt⟩, fun h => ?_⟩
  cases hd : decode w with
  | illegal r => exact ⟨r, rfl⟩
  | instr i =>
    obtain ⟨hop, hcnt⟩ := decode_eq_instr_iff.1 hd
    rw [← hop, ← hcnt] at h
    obtain hres | hno := h
    · exact absurd hres (not_reservedOp_opcode i)
    · exact absurd hno (not_noOperandOp_with_count i)

/-- Settles O2: both directions compare the two fields of a word (`decode_eq_instr_iff`). -/
theorem decodeEncodeRoundTrip : Obligations.DecodeEncodeRoundTrip := by
  refine ⟨fun i => decode_eq_instr_iff.2 ⟨(opField_append _ _).symm, (cntField_append _ _).symm⟩, fun w i h => ?_⟩
  obtain ⟨hop, hcnt⟩ := decode_eq_instr_iff.1 h
  rw [encode, hop, hcnt, opField_append_cntField]

/-- Settles O3: a word is illegal by name (`decode_eq_illegal`), or a command's (`decode_eq_instr_iff`). -/
theorem everyWordClassified : Obligations.EveryWordClassified := by
  intro w
  cases hd : decode w with
  | instr i => exact .inr (.inr ⟨i, rfl, decode_eq_instr_iff.1 hd⟩)
  | illegal r =>
    obtain ⟨hop, rfl⟩ | ⟨hop, hcnt, rfl⟩ := decode_eq_illegal hd
    · exact .inl ⟨hop, rfl⟩
    · exact .inr (.inl ⟨hop, hcnt, rfl⟩)

end Sys2Proof

namespace Sys2Proof.Machine

/-! ### Illegal words -/

/-- A port does not take the commands of the other port (R76; R86 case 3). -/
theorem accepts_eq_false_iff {a : Port} {i : Instr} :
    accepts a i = false ↔
      (a = .P ∧ (opcode i = 0x4 ∨ opcode i = 0x5 ∨ opcode i = 0x6 ∨ opcode i = 0xA)) ∨
        (a = .C ∧ (opcode i = 0x1 ∨ opcode i = 0x2 ∨ opcode i = 0x3 ∨ opcode i = 0x8 ∨ opcode i = 0x9)) := by
  cases a <;> cases i <;> simp [accepts, opcode]

/-- What the standing reservation forbids (R86 cases 5 and 6). -/
theorem admitted_eq_false_iff {r : Reservation} {i : Instr} :
    admitted r i = false ↔
      (r.valid = true ∧ (opcode i = 0x1 ∨ opcode i = 0x2 ∨ opcode i = 0x8 ∨ opcode i = 0x9)) ∨
        (opcode i = 0x3 ∧ (r.valid = false ∨ i.count.toInt < 0 ∨ r.len.toInt < i.count.toInt)) := by
  cases i with
  | publ k => simp [admitted, opcode, Instr.count, imp_iff_not_or, or_assoc]
  | _ => simp [admitted, opcode]

/-- A command is not legal before a successful configuration, on the wrong port, or against the reservation, which only
commands of the P-port look at (R86 cases 1, 3, 5, 6). -/
theorem legal_eq_false_iff {a : Port} {i : Instr} {s : State} :
    legal a i s = false ↔
      s.cfgState = .cfgFail ∨ accepts a i = false ∨ (a = .P ∧ admitted s.rsv i = false) := by
  have hcfg : s.cfgState = .cfgFail ↔ s.cfgState ≠ .ready := by cases s.cfgState <;> simp
  cases a with
  | P => simp [legal, hcfg, Decidable.or_iff_not_imp_left]
  | C =>
    have hfree : accepts .C i = true → admitted s.rsv i = true := by cases i <;> simp [accepts, admitted]
    cases hacc : accepts .C i with
    | false => simp [legal, hacc]
    | true => simp [legal, hacc, hfree hacc, hcfg]

/-- The cases of R86 in which a port has no command for a word, in the order of its cases 1, 2, 3, 4, 5 and 6. -/
theorem decodeAt_eq_none_iff {a : Port} {w : BitVec 68} {s : State} :
    decodeAt a w s = none ↔
      s.cfgState = .cfgFail ∨ ReservedOp (opField w) ∨
        (a = .P ∧ (opField w = 0x4 ∨ opField w = 0x5 ∨ opField w = 0x6 ∨ opField w = 0xA)) ∨
        (a = .C ∧ (opField w = 0x1 ∨ opField w = 0x2 ∨ opField w = 0x3 ∨ opField w = 0x8 ∨ opField w = 0x9)) ∨
        (NoOperandOp (opField w) ∧ cntField w ≠ 0) ∨
        (a = .P ∧ s.rsv.valid = true ∧
          (opField w = 0x1 ∨ opField w = 0x2 ∨ opField w = 0x8 ∨ opField w = 0x9)) ∨
        (a = .P ∧ opField w = 0x3 ∧
          (s.rsv.valid = false ∨ (cntField w).toInt < 0 ∨ s.rsv.len.toInt < (cntField w).toInt)) := by
  cases hd : decode w with
  | illegal r =>
    have hnone : decodeAt a w s = none := by simp [decodeAt, hd]
    obtain hres | hno := decode_illegal_iff.1 ⟨r, hd⟩
    · exact iff_of_true hnone (.inr (.inl hres))
    · exact iff_of_true hnone (.inr (.inr (.inr (.inr (.inl hno)))))
  | instr i =>
    obtain ⟨hop, hcnt⟩ := decode_eq_instr_iff.1 hd
    have hlegal : decodeAt a w s = none ↔ legal a i s = false := by simp [decodeAt, hd]
    rw [hlegal, legal_eq_false_iff, accepts_eq_false_iff, admitted_eq_false_iff, ← hop, ← hcnt]
    simp only [not_reservedOp_opcode, not_noOperandOp_with_count, false_or, and_or_left, or_assoc]

/-- The command a port has for a word is the one the word decodes to (R86). -/
theorem decodeAt_eq_some {a : Port} {w : BitVec 68} {s : State} {i : Instr} (h : decodeAt a w s = some i) :
    decode w = .instr i := by
  unfold decodeAt at h
  split at h
  · next j hd =>
    split at h
    · cases h
      exact hd
    · cases h
  · cases h

@[simp] theorem setPort_setPort (s : State) (a : Port) (x y : PortState) :
    (s.setPort a x).setPort a y = s.setPort a y := by
  cases a <;> rfl

theorem legal_present (a b : Port) (i : Instr) (pr : Presented) (rest : List Presented) (s : State) :
    legal a i (present pr rest b s) = legal a i s := by
  simp [legal, present]

/-- An IDLE port answers a presented word for which it has no command with `ILLEGAL` (R86). -/
theorem stepPort_illegal {a : Port} {s : State} {pr : Presented} {rest : List Presented} (ht : s.turn = a)
    (hp : (s.port a).phase = .idle) (hs : (s.port a).script = pr :: rest) (hd : decodeAt a pr.cmd s = none) :
    stepPort a s = respondIllegal (present pr rest a s) := by
  have hturn : (present pr rest a s).turn = a := by simp [present, ht]
  have hidle : (present pr rest a s).phase = .idle := by rw [State.phase, hturn, present_port]; exact hp
  simp only [stepPort, hp, hs]
  split
  · next i hi =>
    refine exec_illegal hidle ?_
    rw [hturn, legal_present]
    simpa [decodeAt, hi] using hd
  · rfl

/-- What answering `ILLEGAL` to a presented pair makes of the state: the port's inputs and its responses (R71, R86). -/
theorem present_respond {a : Port} {s : State} (ht : s.turn = a) (hp : (s.port a).phase = .idle) (pr : Presented)
    (rest : List Presented) (r : Response) :
    (present pr rest a s).respond r =
      s.setPort a
        { s.port a with
          cmd := pr.cmd, payload := pr.payload, script := rest, responses := (s.port a).responses ++ [r] } := by
  simp [State.respond, present, ht, ← hp]

/-- Settles O4: the cases of R86 (`decodeAt_eq_none_iff`), the command a word decodes to, and the answer of an IDLE port
(`stepPort_illegal`). -/
theorem decodeIsTotal : Obligations.DecodeIsTotal := by
  refine ⟨fun a w s => decodeAt_eq_none_iff, fun a w s i h => decode_eq_instr_iff.1 (decodeAt_eq_some h),
    fun s a lag rest pr prs hsched hp hs hd => ?_⟩
  have hstep : step s = respondIllegal (present pr prs a (s.atTurn a lag rest)) := by
    simp only [step, hsched]
    exact stepPort_illegal rfl (by rwa [atTurn_port]) (by rwa [atTurn_port]) hd
  rw [hstep, respondIllegal, respond, present_respond (s := s.atTurn a lag rest) (a := a) rfl (by rwa [atTurn_port]),
    atTurn_port]

/-- Settles O1: each word is decoded by its fields; the two illegal pairs are cases 4 and 3 of R86. -/
theorem workedEncodings : Obligations.WorkedEncodings := by
  refine ⟨by decide, by decide, by decide, by decide, by decide, by decide, by decide,
    fun a s => decodeAt_eq_none_iff.2 (.inr (.inr (.inr (.inr (.inl ⟨?_, by decide⟩))))),
    fun s => decodeAt_eq_none_iff.2 (.inr (.inr (.inr (.inl ⟨rfl, .inl (by decide)⟩)))), by decide⟩
  unfold NoOperandOp
  decide

/-! ### The statuses of responses -/

/-- The statuses a response may carry: no configuration error, and an external code from 16 on (R83; 60_exceptions.md
R134). -/
def respondable : Status → Bool
  | .notPow2 => false
  | .tooSmall => false
  | .ext x => extCodeOk x
  | .ok | .eos | .insuf | .full | .neg | .illegal => true

/-- What `ResponsesStayInTheTaxonomy` says of a status. -/
theorem respondable_spec {st : Status} (h : respondable st = true) :
    st ≠ .notPow2 ∧ st ≠ .tooSmall ∧ ((statusCode st).toNat ≤ 7 ∨ 16 ≤ (statusCode st).toNat) := by
  cases st with
  | notPow2 | tooSmall => cases h
  | ext x => exact ⟨nofun, nofun, .inr (of_decide_eq_true h)⟩
  | _ => exact ⟨nofun, nofun, .inl (by decide)⟩

theorem respondable_ext {x : Byte} (h : 16 ≤ x.toNat) : respondable (.ext x) = true := decide_eq_true h

theorem peekStatus_cases (m n : Int) : peekStatus m n = .ok ∨ peekStatus m n = .insuf := by
  unfold peekStatus
  split
  · exact .inl rfl
  · exact .inr rfl

theorem respondable_peekStatus (m n : Int) : respondable (peekStatus m n) = true := by
  obtain h | h := peekStatus_cases m n
  · rw [h]; rfl
  · rw [h]; rfl

theorem respondable_of_argError {size n : Int} {e : Status} (h : argError size n = some e) : respondable e = true := by
  obtain rfl | rfl := argError_eq_some h
  · rfl
  · rfl

/-- `u` is a state inside a step from `s`, before its response: the latched external codes are in range and no response
has been given. -/
structure State.Unanswered (s u : State) : Prop where
  source : ∀ x, u.p.err = .ext x → 16 ≤ x.toNat
  sink : ∀ x, u.c.err = some x → 16 ≤ x.toNat
  pResponses : u.pPort.responses = s.pPort.responses
  cResponses : u.cPort.responses = s.cPort.responses

/-- A step from `s` ends in `t`: the latched external codes are in range, and so is the status of a response
it gives. -/
structure State.Answers (s t : State) : Prop where
  ext : t.ExtInv
  status : ∀ a r, (t.port a).responses = (s.port a).responses ++ [r] → respondable r.status = true

/-- Inside a step from `s`, `f` ends the step well. -/
def State.AnswersBy (s : State) (f : State → Out) : Prop :=
  ∀ ⦃u t : State⦄, f u = .next t → s.Unanswered u → s.Answers t

section
variable {s t u : State} {i : Instr} {l : Label}

theorem State.Unanswered.port (h : s.Unanswered u) (a : Port) : (u.port a).responses = (s.port a).responses := by
  cases a with
  | P => exact h.pResponses
  | C => exact h.cResponses

theorem State.Unanswered.setPort (h : s.Unanswered u) {a : Port} {x : PortState}
    (hx : x.responses = (u.port a).responses) : s.Unanswered (u.setPort a x) := by
  cases a with
  | P => exact { h with pResponses := hx.trans h.pResponses }
  | C => exact { h with cResponses := hx.trans h.cResponses }

theorem State.Unanswered.setP (h : s.Unanswered u) {x : PLatches} (hx : x.err = u.p.err := by simp) :
    s.Unanswered (u.setP x) :=
  { h with source := fun y he => h.source y (hx.symm.trans he) }

theorem State.Unanswered.setC (h : s.Unanswered u) {x : CLatches} (hx : x.err = u.c.err := by simp) :
    s.Unanswered (u.setC x) :=
  { h with sink := fun y he => h.sink y (hx.symm.trans he) }

theorem State.Unanswered.storePseq (h : s.Unanswered u) (v : Word) : s.Unanswered (u.storePseq v) := { h with }

theorem State.Unanswered.setGate (h : s.Unanswered u) (v : Word) : s.Unanswered (u.setGate v) := { h with }

theorem State.Unanswered.storeCseq (h : s.Unanswered u) (v : Word) : s.Unanswered (u.storeCseq v) := { h with }

theorem State.Unanswered.setDone (h : s.Unanswered u) : s.Unanswered u.setDone := { h with }

theorem State.Unanswered.bumpCwait (h : s.Unanswered u) : s.Unanswered u.bumpCwait := { h with }

theorem State.Unanswered.setRsv (h : s.Unanswered u) (r : Reservation) : s.Unanswered (u.setRsv r) := { h with }

theorem State.Unanswered.setBuf (h : s.Unanswered u) (m : Memory) : s.Unanswered (u.setBuf m) := { h with }

theorem State.Unanswered.setTmp (h : s.Unanswered u) (m : Memory) : s.Unanswered (u.setTmp m) := { h with }

theorem State.Unanswered.noteSample (h : s.Unanswered u) : s.Unanswered u.noteSample := h.setPort rfl

theorem State.Unanswered.raiseFloor (h : s.Unanswered u) : s.Unanswered u.raiseFloor := h.setPort rfl

theorem State.Unanswered.present (h : s.Unanswered u) (pr : Presented) (rest : List Presented) (a : Port) :
    s.Unanswered (present pr rest a u) := h.setPort rfl

theorem State.Unanswered.accept (h : s.Unanswered u) (i : Instr) (l : Label) : s.Unanswered (accept i l u) := by
  have hu : s.Unanswered (u.setPort u.turn { u.acceptedPort with phase := .run i l }) := h.setPort rfl
  rw [Machine.accept]
  cases i <;> exact { hu with }

/-- A step that gives no response. -/
theorem State.Unanswered.answers (h : s.Unanswered u) : s.Answers u :=
  ⟨⟨h.source, h.sink⟩, fun a r hr => by simp [h.port a] at hr⟩

theorem State.Unanswered.goto (h : s.Unanswered u) (l : Label) : s.Answers (u.goto l) :=
  State.Unanswered.answers (h.setPort (x := { u.port u.turn with phase := _ }) rfl)

/-- A step that gives a response. -/
theorem State.Unanswered.respond (h : s.Unanswered u) {r : Response} (hr : respondable r.status = true) :
    s.Answers (u.respond r) := by
  refine ⟨⟨by simpa using h.source, by simpa using h.sink⟩, fun a r' hr' => ?_⟩
  by_cases ha : u.turn = a
  · subst ha
    rw [respond_port, h.port, List.append_cancel_left_eq, List.singleton_inj] at hr'
    exact hr' ▸ hr
  · simp [State.respond, setPort_port_ne _ _ _ _ ha, h.port] at hr'

theorem goto_answers (k : Label) : s.AnswersBy (goto k) := fun _ _ h hu => goto_eq_next.1 h ▸ hu.goto k

theorem respond_answers {st : Status} {n aux : Word} {data : List Byte} (hr : respondable st = true) :
    s.AnswersBy (respond ⟨st, n, aux, data⟩) := fun _ _ h hu => respond_eq_next.1 h ▸ hu.respond hr

/-! #### The primitive commands -/

theorem gateStep_answers {onEos : State → Out} (he : s.AnswersBy onEos) (after : Label) :
    s.AnswersBy (gateStep after onEos l) := by
  intro u t h hu
  rcases gateStep_next h with
    ⟨-, -, -, rfl, rfl⟩ | ⟨-, -, rfl⟩ | ⟨-, -, rfl⟩ | ⟨-, -, h⟩ | ⟨-, -, rfl⟩ | ⟨-, rfl⟩
  · exact hu.setP.goto _
  · exact (hu.noteSample.setP.setGate _).goto _
  · exact hu.noteSample.setP.goto _
  · exact he h hu
  · exact hu.goto _
  · exact hu.goto _

theorem cwaitStep_answers {onEos : State → Out} (he : s.AnswersBy onEos) (after : Label) :
    s.AnswersBy (cwaitStep after onEos l) := by
  intro u t h hu
  rcases cwaitStep_next h with ⟨-, rfl⟩ | ⟨-, rfl⟩ | ⟨-, -, h⟩ | ⟨-, -, rfl⟩ | ⟨-, rfl⟩
  · exact hu.setC.goto _
  · exact hu.noteSample.setC.goto _
  · exact he h hu.bumpCwait
  · exact hu.bumpCwait.goto _
  · exact hu.setC.goto _

theorem lenStep_answers : s.AnswersBy (lenStep l) := by
  intro u t h hu
  rcases lenStep_next h with ⟨-, -, rfl⟩ | ⟨-, -, rfl⟩ | ⟨-, -, rfl⟩ | ⟨-, -, rfl⟩
  · exact hu.setP.goto _
  · exact hu.setC.goto _
  · exact hu.noteSample.setP.respond rfl
  · exact hu.noteSample.setC.respond rfl

theorem identStep_answers : s.AnswersBy (identStep l) := by
  intro u t h hu
  obtain ⟨-, rfl⟩ := identStep_next h
  exact hu.respond rfl

theorem closeStep_answers : s.AnswersBy (closeStep l) := by
  intro u t h hu
  obtain ⟨-, rfl⟩ := closeStep_next h
  exact hu.setDone.respond rfl

section
variable {ret : Response → State → Out} (hr : ∀ r, respondable r.status = true → s.AnswersBy (ret r))
include hr

theorem readStep_answers : s.AnswersBy (readStep ret l) := by
  intro u t h hu
  rcases readStep_next h with ⟨-, -, h⟩ | ⟨-, -, rfl⟩ | ⟨-, m, out, -, -, rfl⟩ | ⟨-, h⟩ | h
  · exact hr _ rfl h hu
  · exact hu.goto _
  · exact hu.setC.goto _
  · exact hr _ rfl h (hu.storeCseq _)
  · exact cwaitStep_answers (hr _ rfl) _ h hu

theorem peekStep_answers : s.AnswersBy (peekStep ret l) := by
  intro u t h hu
  rcases peekStep_next h with ⟨-, e, he, h⟩ | ⟨-, -, rfl⟩ | ⟨-, m, start, s', -, -, rfl, h⟩ | h
  · exact hr _ (respondable_of_argError he) h hu
  · exact hu.goto _
  · have hu' := hu.setC (x := { u.c with m := narrow m, start := narrow start })
    rcases h with ⟨-, h⟩ | ⟨-, -, view, -, h⟩ | ⟨-, -, view, tmp, -, h⟩
    · exact hr _ rfl h hu'
    · exact hr _ (respondable_peekStatus _ _) h hu'
    · exact hr _ (respondable_peekStatus _ _) h (hu'.setTmp tmp)
  · exact cwaitStep_answers (hr _ rfl) _ h hu

theorem commitStep_answers : s.AnswersBy (commitStep ret l) := by
  intro u t h hu
  rcases commitStep_next h with ⟨-, e, he, h⟩ | ⟨-, -, rfl⟩ | ⟨-, s', rfl, ⟨-, rfl⟩ | ⟨-, h⟩⟩ | ⟨-, h⟩
  · exact hr _ (respondable_of_argError he) h hu
  · exact hu.goto _
  · exact hu.noteSample.setC.goto _
  · exact hr _ rfl h hu.noteSample.setC
  · exact hr _ rfl h (hu.storeCseq _)

theorem writeStep_answers : s.AnswersBy (writeStep ret l) := by
  intro u t h hu
  rcases writeStep_next h with ⟨-, e, he, h⟩ | ⟨-, -, rfl⟩ | ⟨-, m, -, rfl⟩ | ⟨-, h⟩ | h
  · exact hr _ (respondable_of_argError he) h hu
  · exact hu.goto _
  · exact (hu.setBuf m).goto _
  · exact hr _ rfl h (hu.storePseq _)
  · exact gateStep_answers (hr _ rfl) _ h hu

theorem rsveStep_answers : s.AnswersBy (rsveStep ret l) := by
  intro u t h hu
  rcases rsveStep_next h with ⟨-, rfl⟩ | ⟨-, h⟩ | h
  · exact hu.setP.goto _
  · exact hr _ rfl h (hu.setRsv _)
  · exact gateStep_answers (hr _ rfl) _ h hu

theorem publStep_answers : s.AnswersBy (publStep ret l) := by
  intro u t h hu
  rcases publStep_next h with ⟨-, -, m, -, rfl⟩ | ⟨-, h⟩
  · exact (hu.setBuf m).goto _
  · exact hr _ rfl h ((hu.storePseq _).setRsv _)

end

/-! #### The streaming commands -/

/-- The source answers with a code in range (42_macro_commands.md R116). -/
theorem srcRead_answers (max : Int) (k : Label) : s.AnswersBy (srcRead max k) := by
  intro u t h hu
  rcases srcRead_next h with ⟨-, rfl⟩ | ⟨a, rest, -, hfits, rfl⟩
  · exact hu.answers
  · have hcode : ∀ x, a.err = .ext x → 16 ≤ x.toNat := fun x hx => by
      simpa [SrcAnswer.fits, hx, extCodeOk] using (Bool.and_eq_true_iff.1 hfits).2
    have hu' : s.Unanswered ((u.setEnv { u.env with source := rest }).setP
        { u.p with n := narrow a.data.length, data := a.data, err := a.err }) := { hu with source := hcode }
    exact hu'.goto _

/-- The sink answers with a code in range (R117). -/
theorem sinkWrite_answers (k : Label) : s.AnswersBy (sinkWrite k) := by
  intro u t h hu
  rcases sinkWrite_next h with ⟨-, rfl⟩ | ⟨a, rest, -, hfits, rfl⟩
  · exact hu.answers
  · have hcode : ∀ x, a.err = some x → 16 ≤ x.toNat := fun x hx => by
      simp only [SinkAnswer.fits, hx, extCodeOk, Bool.and_eq_true, decide_eq_true_eq] at hfits
      exact hfits.2
    have hu' : s.Unanswered
        ((u.setEnv { u.env with sink := rest, delivered := u.env.delivered ++ [u.c.view] }).setC
          { u.c with k := narrow a.count, err := a.err }) := { hu with sink := hcode }
    exact hu'.goto _

theorem sourceEnd_answers (again : Label) : s.AnswersBy (sourceEnd again) := by
  intro u t h hu
  unfold sourceEnd at h
  split at h
  · exact goto_answers _ h hu
  · exact respond_answers rfl h hu
  · next x hx => exact respond_answers (respondable_ext (hu.source x hx)) h hu

theorem readFromAfterRsve_answers (r : Response) : s.AnswersBy (readFromAfterRsve r) := by
  intro u t h hu
  unfold readFromAfterRsve at h
  split at h
  · exact respond_answers rfl h hu
  · exact goto_answers _ h hu

theorem readFromAfterPubl_answers (r : Response) : s.AnswersBy (readFromAfterPubl r) :=
  fun _ _ h hu => goto_answers .F4 h hu.setP

theorem readFromBAfterWrite_answers (r : Response) (hr : respondable r.status = true) :
    s.AnswersBy (readFromBAfterWrite r) := by
  intro u t h hu
  have hu' : s.Unanswered (addTotalP r.n u) := hu.setP
  unfold readFromBAfterWrite at h
  simp only at h
  split at h
  · exact goto_answers _ h hu'
  · exact respond_answers hr h hu'

theorem startPeek_answers : s.AnswersBy startPeek := fun _ _ h hu => goto_answers .B1 h hu.setC

theorem startCommit_answers (k : Word) : s.AnswersBy (startCommit k) :=
  fun _ _ h hu => goto_answers .M1 h hu.setC

theorem writeToAfterPeek_answers (r : Response) (hr : respondable r.status = true) :
    s.AnswersBy (writeToAfterPeek r) := by
  intro u t h hu
  unfold writeToAfterPeek at h
  split at h
  · exact goto_answers _ h hu.setC
  · exact respond_answers hr h hu

theorem writeToAfterSink_answers : s.AnswersBy writeToAfterSink := by
  intro u t h hu
  unfold writeToAfterSink at h
  split at h
  · exact startCommit_answers _ h hu
  next x hx =>
  have hu' : s.Unanswered (addTotalC u.c.k u) := hu.setC
  simp only at h
  split at h
  · exact startCommit_answers _ h hu'
  · exact respond_answers (respondable_ext (hu.sink x hx)) h hu'

theorem writeToAfterCommit_answers (r : Response) : s.AnswersBy (writeToAfterCommit r) := by
  intro u t h hu
  unfold writeToAfterCommit at h
  split at h
  · exact startPeek_answers h hu.setC
  · next x hx => exact respond_answers (respondable_ext (hu.sink x hx)) h hu

theorem readFromStep_answers : s.AnswersBy (readFromStep l) := by
  intro u t h hu
  unfold readFromStep at h
  split at h
  · exact goto_answers _ h hu.setP
  · exact srcRead_answers _ _ h hu
  · exact sourceEnd_answers _ h hu
  · exact rsveStep_answers (fun r _ => readFromAfterRsve_answers r) h hu.raiseFloor
  · exact publStep_answers (fun r _ => readFromAfterPubl_answers r) h hu.raiseFloor
  · exact publStep_answers (fun r _ => readFromAfterPubl_answers r) h hu
  · exact rsveStep_answers (fun r _ => readFromAfterRsve_answers r) h hu

theorem readFromBStep_answers : s.AnswersBy (readFromBStep l) := by
  intro u t h hu
  unfold readFromBStep at h
  split at h
  · exact goto_answers _ h hu.setP
  · exact srcRead_answers _ _ h hu
  · exact sourceEnd_answers _ h hu
  · exact writeStep_answers readFromBAfterWrite_answers h hu.raiseFloor
  · exact writeStep_answers readFromBAfterWrite_answers h hu

theorem writeToStep_answers : s.AnswersBy (writeToStep l) := by
  intro u t h hu
  unfold writeToStep at h
  split at h
  · exact startPeek_answers h hu.setC
  · exact sinkWrite_answers _ h hu
  · exact writeToAfterSink_answers h hu
  · exact peekStep_answers writeToAfterPeek_answers h hu.raiseFloor
  · exact commitStep_answers (fun r _ => writeToAfterCommit_answers r) h hu.raiseFloor
  · exact commitStep_answers (fun r _ => writeToAfterCommit_answers r) h hu
  · exact commitStep_answers (fun r _ => writeToAfterCommit_answers r) h hu
  · exact peekStep_answers writeToAfterPeek_answers h hu

/-! #### Every command, and the step of the machine -/

theorem stepOf_answers (i : Instr) (l : Label) : s.AnswersBy (stepOf i l) := by
  have hrespond : ∀ r : Response, respondable r.status = true → s.AnswersBy (respond r) := fun _ => respond_answers
  cases i with
  | write n => exact writeStep_answers hrespond
  | rsve => exact rsveStep_answers hrespond
  | publ k => exact publStep_answers hrespond
  | read cap => exact readStep_answers hrespond
  | peek n => exact peekStep_answers hrespond
  | commit n => exact commitStep_answers hrespond
  | readFrom => exact readFromStep_answers
  | readFromB => exact readFromBStep_answers
  | writeTo => exact writeToStep_answers
  | close => exact closeStep_answers
  | len => exact lenStep_answers
  | ident => exact identStep_answers

theorem exec_answers (i : Instr) : s.AnswersBy (exec i) := by
  intro u t h hu
  rw [exec_eq_command] at h
  rcases command_next h with ⟨-, -, -, h⟩ | ⟨-, -, rfl⟩ | ⟨l, -, -, h⟩
  · exact stepOf_answers i _ h (hu.accept i _)
  · exact hu.respond rfl
  · exact stepOf_answers i l h hu

theorem stepPort_answers (a : Port) : s.AnswersBy (stepPort a) := by
  intro u t h hu
  rcases stepPort_next h with ⟨i, l, -, h⟩ | ⟨-, -, rfl⟩ | ⟨-, pr, rest, -, ⟨i, -, h⟩ | ⟨-, rfl⟩⟩
  · exact exec_answers i h hu
  · exact hu.answers
  · exact exec_answers i h (hu.present pr rest a)
  · exact (hu.present pr rest a).respond rfl

/-- A reset gives no response, and its latches hold no external code unless they keep the old one (log entries 2 and
4). -/
theorem resetWith_unanswered (h : s.Unanswered u) (z id : Word) : s.Unanswered (resetWith z id u) := by
  unfold resetWith
  split
  · exact { h with source := nofun, sink := nofun }
  · exact { h with }

end

/-- Settles O7: no step function hands back another status than those of `respondable`, and the external codes it hands
back are latched ones. -/
theorem responsesStayInTheTaxonomy : Obligations.ResponsesStayInTheTaxonomy := by
  intro s t hs h
  have hu : s.Unanswered s := ⟨hs.1, hs.2, rfl, rfl⟩
  have hans : s.Answers t := by
    rcases step_next h with ⟨-, rfl⟩ | ⟨a, lag, rest, -, h⟩ | ⟨z, id, rest, -, rfl⟩
    · exact hu.answers
    · exact stepPort_answers a h { hu with }
    · have hu' : s.Unanswered { s with env := { s.env with sched := rest } } := { hu with }
      exact (resetWith_unanswered hu' z id).answers
  exact ⟨hans.ext, fun a r hr => respondable_spec (hans.status a r hr)⟩

/-! ### The view of PEEK -/

/-- In the middle of a command a port that accepts it takes the step its phase names (10_state.md R33). -/
theorem exec_middle {s : State} {i : Instr} {l : Label} (hp : s.phase = .run i l) (ha : accepts s.turn i = true) :
    exec i s = stepOf i l s := by
  simp [exec_eq_command, command, hp, ha]

/-- The descriptor of a view in `BUF` (30_encoding.md R84). -/
theorem viewAux_buf {base : Nat} (h : base < 2 ^ 63) :
    (viewAux false base).getLsbD 63 = false ∧ (viewAux false base).toNat = base := by
  have hnat : (viewAux false base).toNat = base := by
    change (BitVec.ofBool false ++ BitVec.ofNat 63 base).toNat = base
    rw [BitVec.toNat_append, BitVec.toNat_ofNat, Nat.mod_eq_of_lt h]
    simp
  exact ⟨Nat.testBit_lt_two_pow (hnat.symm ▸ h), hnat⟩

/-- The descriptor of a view in `TMP` (R84). -/
theorem viewAux_tmp : (viewAux true 0).getLsbD 63 = true ∧ (viewAux true 0).extractLsb' 0 63 = 0 := by
  decide

section
variable {s : State} {i : Instr}

/-- Unread bytes in two pieces are copied to `TMP` from index 0 (41_consumer_commands.md R110). -/
theorem SharedInv.splitCopy_unread (h : s.SharedInv) {n : Nat} (hwrap : s.sizeNat < s.idx s.cseq.cursor + n)
    (hn : s.cseq.cursor.toInt + n ≤ s.pseq.cursor.toInt) :
    ∃ v tmp, splitCopy s.buf s.tmp s.sizeNat (s.idx s.cseq.cursor) n = .ok (v, tmp) ∧ v.length = n ∧
      s.Holds s.cseq.cursor.toInt v ∧ (∀ j, j < n → tmp.read j = v[j]?) ∧
        ∀ j, n ≤ j → tmp.read j = s.tmp.read j := by
  obtain ⟨hsize, -, -, -, hidx, -⟩ := SizeInv.facts h.size
  obtain ⟨-, -, hps, -⟩ := h.ring
  obtain ⟨hbuf, htmp, -⟩ := h.spaces
  have hstart := hidx s.cseq.cursor
  have hread : ∀ j, j < n → s.buf.read ((s.idx s.cseq.cursor + j) % s.sizeNat) =
      s.at (s.cseq.cursor.toInt + j) ∧ (s.at (s.cseq.cursor.toInt + j)).isSome = true :=
    fun j hj => SharedInv.read_unread h (by omega)
  obtain ⟨v, tmp, hcopy⟩ := splitCopy_total hbuf htmp hstart (m := n) (by omega) (by omega)
    (fun j hj => by rw [(hread j hj).1]; exact (hread j hj).2)
  obtain ⟨hlen, hbytes, hin, hout, -, -⟩ := splitCopy_ok hstart (by omega) (by omega) hcopy
  exact ⟨v, tmp, hcopy, hlen, fun j hj => (hread j (by omega)).1.symm.trans (hbytes j (by omega)), hin, hout⟩

/-- `v` is the view PEEK shows at B3, with its descriptor and the `TMP` the step leaves (R84, R110). -/
structure State.View (s : State) (v : List Byte) (aux : Word) (tmp : Memory) : Prop where
  length : (v.length : Int) = min s.c.n.toInt s.c.avail.toInt
  holds : s.Holds s.c.cpos.toInt v
  empty : v = [] → aux = 0 ∧ tmp = s.tmp
  contiguous : v ≠ [] → s.idx s.c.cpos + v.length ≤ s.sizeNat → aux = viewAux false (s.idx s.c.cpos) ∧ tmp = s.tmp
  wraps : s.sizeNat < s.idx s.c.cpos + v.length →
    aux = viewAux true 0 ∧ (∀ j, j < v.length → tmp.read j = v[j]?) ∧ ∀ j, v.length ≤ j → tmp.read j = s.tmp.read j

/-- The state in which B3 hands back a view: the latches of its length and start, and `TMP`. -/
def State.viewed (s : State) (v : List Byte) (tmp : Memory) : State :=
  (s.setC { s.c with m := narrow v.length, start := narrow (s.idx s.c.cpos) }).setTmp tmp

/-- B3 from a sound state hands back a view (R110). -/
theorem peekStep_B3_view (h : s.SharedInv) (hn : 0 ≤ s.c.n.toInt) (hd : s.DataHeld) :
    ∃ v aux tmp, s.View v aux tmp ∧ ∀ ret : Response → State → Out,
      peekStep ret .B3 s = ret ⟨peekStatus v.length s.c.n.toInt, narrow v.length, aux, v⟩ (s.viewed v tmp) := by
  obtain ⟨⟨hpos, hlt, hle⟩, havail⟩ := hd
  obtain ⟨hsize, -, -, -, hidx, -⟩ := SizeInv.facts h.size
  have hstart := hidx s.c.cpos
  obtain ⟨m, hm⟩ : ∃ m : Nat, (m : Int) = min s.c.n.toInt s.c.avail.toInt :=
    ⟨(min s.c.n.toInt s.c.avail.toInt).toNat, by omega⟩
  have hmle : s.cseq.cursor.toInt + m ≤ s.pseq.cursor.toInt := by rw [← hpos]; omega
  by_cases hm0 : m = 0
  · have hn0 : s.c.n.toInt = 0 := by omega
    rw [hm0] at hm
    refine ⟨[], 0, s.tmp, ⟨hm, nofun, fun _ => ⟨rfl, rfl⟩, absurd rfl, fun hw => ?_⟩, fun ret => ?_⟩
    · rw [List.length_nil] at hw
      omega
    · simp only [peekStep, ← hm]
      rw [hn0]
      rfl
  have hne : (m : Int) ≠ 0 := by omega
  by_cases hend : s.idx s.c.cpos + m ≤ s.sizeNat
  · obtain ⟨v, hv, rfl, hh⟩ := SharedInv.memRead_unread h (by rwa [← hpos]) hmle
    rw [← hpos] at hv hh
    refine ⟨v, viewAux false (s.idx s.c.cpos), s.tmp,
      ⟨hm, hh, fun hv0 => absurd (by simp [hv0]) hm0, fun _ _ => ⟨rfl, rfl⟩, fun hw => by omega⟩, fun ret => ?_⟩
    simp only [peekStep, ← hm, hne, if_false, contiguous, Int.toNat_natCast, hend, decide_true, if_true, hv]
    rfl
  · obtain ⟨v, tmp, hcopy, rfl, hh, hin, hout⟩ := SharedInv.splitCopy_unread h (n := m) (by rw [← hpos]; omega) hmle
    rw [← hpos] at hcopy hh
    refine ⟨v, viewAux true 0, tmp, ⟨hm, hh, fun hv0 => absurd (by simp [hv0]) hm0, fun _ hc => absurd hc hend,
      fun _ => ⟨rfl, hin, hout⟩⟩, fun ret => ?_⟩
    simp only [peekStep, ← hm, hne, if_false, contiguous, Int.toNat_natCast, hend, decide_false, Bool.false_eq_true,
      hcopy]
    rfl

/-- A PEEK at B3 of a sound state holds data and a count from 0 on (R107, R110); WRITETO's count is `WBLK`
(42_macro_commands.md R120). -/
theorem State.Inv.at_B3 (h : s.Inv) (hcfg : s.cfgState = .ready) (ht : s.turn = .C) (hp : s.phase = .run i .B3) :
    s.SharedInv ∧ 0 ≤ s.c.n.toInt ∧ s.DataHeld ∧ (i = .writeTo → 1 ≤ s.c.n.toInt) := by
  have hr := h.ready hcfg
  obtain ⟨-, hl⟩ := hr.running h.params hp
  rw [ht] at hl
  obtain ⟨⟨hn, hop⟩, -, hd⟩ : s.CLabelInv i .B3 := hl
  refine ⟨hr.shared h.params, hn, hd, ?_⟩
  rintro rfl
  have hblk := (Params.ok_facts h.params).2.1
  obtain ⟨n, hi⟩ | ⟨⟨n, hi⟩, -⟩ | ⟨-, hw⟩ := hop
  · cases hi
  · cases hi
  · omega

/-- What `PeekAnswersView` says of the descriptor and of `TMP`. -/
theorem State.View.descriptor {v : List Byte} {aux : Word} {tmp : Memory} (h : s.View v aux tmp) (hs : s.SizeInv) :
    (v = [] → aux = 0 ∧ tmp = s.tmp) ∧
      (v ≠ [] → s.idx s.c.cpos + v.length ≤ s.sizeNat →
        aux.getLsbD 63 = false ∧ aux.toNat = s.idx s.c.cpos ∧ tmp = s.tmp) ∧
      (s.sizeNat < s.idx s.c.cpos + v.length →
        aux.getLsbD 63 = true ∧ aux.extractLsb' 0 63 = 0 ∧
          (∀ j, j < v.length → tmp.read j = v[j]?) ∧ ∀ j, v.length ≤ j → tmp.read j = s.tmp.read j) := by
  refine ⟨h.empty, fun hv hend => ?_, fun hw => ?_⟩
  · obtain ⟨rfl, htmp⟩ := h.contiguous hv hend
    obtain ⟨-, -, hmax, -, hidx, -⟩ := SizeInv.facts hs
    have hlt := hidx s.c.cpos
    obtain ⟨hsrc, hbase⟩ := viewAux_buf (base := s.idx s.c.cpos) (by omega)
    exact ⟨hsrc, hbase, htmp⟩
  · obtain ⟨rfl, hin, hout⟩ := h.wraps hw
    exact ⟨viewAux_tmp.1, viewAux_tmp.2, hin, hout⟩

end

theorem respond_cPort {u : State} (ht : u.turn = .C) (r : Response) : (u.respond r).cPort = u.cPort.answered r := by
  rw [State.respond, ht]
  rfl

theorem goto_cPort {u : State} {i : Instr} {l : Label} (ht : u.turn = .C) (hp : u.cPort.phase = .run i l) (k : Label) :
    (u.goto k).cPort = { u.cPort with phase := .run i k } := by
  rw [State.goto, ht, port_C, hp]
  rfl

/-- WRITETO latches the view its inner PEEK shows (42_macro_commands.md R120). -/
theorem writeToAfterPeek_view (m n : Int) (k aux : Word) (v : List Byte) (u : State) :
    writeToAfterPeek ⟨peekStatus m n, k, aux, v⟩ u = goto .T2 (u.setC { u.c with m := k, view := v }) :=
  if_pos (peekStatus_cases m n)

/-- Settles O20: B3 of a sound state hands back a view (`peekStep_B3_view`); PEEK answers it and WRITETO latches it. -/
theorem peekAnswersView : Obligations.PeekAnswersView := by
  intro i s hinv hcfg ht hi hp
  obtain ⟨h, hn, hd, hfull⟩ := hinv.at_B3 hcfg ht hp
  obtain ⟨v, aux, tmp, hview, hstep⟩ := peekStep_B3_view h hn hd
  have hturn : (s.viewed v tmp).turn = .C := ht
  rcases hi with ⟨n, rfl⟩ | rfl
  · have hexec := (exec_middle hp (by rw [ht]; rfl)).trans (hstep respond)
    refine ⟨_, v, _, aux, hexec, hview.length, hview.holds, fun _ _ => respond_cPort hturn _, nofun, rfl, ?_⟩
    rw [respond_tmp]
    exact hview.descriptor h.size
  · have hexec := (exec_middle hp (by rw [ht]; rfl)).trans (hstep writeToAfterPeek)
    rw [writeToAfterPeek_view] at hexec
    rw [State.phase, ht] at hp
    have hlen := hview.length
    have havail : 1 ≤ s.c.avail.toInt := by
      obtain ⟨⟨-, hlt, -⟩, havail⟩ := hd
      omega
    have hmax := toInt_le_maxInt64 s.c.n
    have hm : (narrow v.length).toInt = v.length := toInt_narrow _ (by unfold minInt64; omega) (by omega)
    have hne : v ≠ [] := by
      rintro rfl
      rw [List.length_nil] at hlen
      have := hfull rfl
      omega
    have hport := goto_cPort (u := (s.viewed v tmp).setC { (s.viewed v tmp).c with m := narrow v.length, view := v })
      hturn hp .T2
    refine ⟨_, v, _, aux, hexec, hlen, hview.holds, nofun, fun _ => ⟨hport, ?_⟩, rfl, ?_⟩
    · rw [goto_c]
      exact ⟨rfl, hm, hne, rfl⟩
    · rw [goto_tmp]
      exact hview.descriptor h.size

end Sys2Proof.Machine
end

section
/-! PROOFS, family 40_producer_commands.md. The steps of the gate and of WRITE, RSVE and PUBL with their exact next
states, and these commands run alone. -/

namespace Sys2Proof.Machine

/-! ### A step of agent P -/

section
variable {s : State} (ht : s.turn = .P)
include ht

theorem pPort_phase : s.pPort.phase = s.phase := by
  rw [State.phase, ht]
  rfl

theorem goto_eq_setPort {i : Instr} {l : Label} (hp : s.pPort.phase = .run i l) (k : Label) :
    goto k s = .next (s.setPort .P { s.pPort with phase := .run i k }) := by
  rw [goto, State.goto, ht, port_P, hp]
  rfl

theorem goto_setPort {x : PortState} {i : Instr} {l : Label} (k : Label) :
    goto k (s.setPort .P { x with phase := .run i l }) = .next (s.setPort .P { x with phase := .run i k }) :=
  goto_eq_setPort (s := s.setPort .P { x with phase := .run i l }) ht rfl k

theorem respond_eq_setPort (r : Response) : respond r s = .next (s.setPort .P (s.pPort.answered r)) := by
  rw [respond, State.respond, ht]
  rfl

theorem noteSample_eq_setPort : s.noteSample = s.setPort .P { s.pPort with floor := s.sample } := by
  rw [State.noteSample, ht]
  rfl

theorem raiseFloor_eq_setPort : s.raiseFloor = s.setPort .P s.acceptedPort := by
  rw [State.raiseFloor, ht]

end

theorem State.SameRegisters.refl (s : State) : s.SameRegisters s :=
  ⟨rfl, rfl, rfl, rfl, rfl, rfl, rfl, rfl, rfl, rfl, rfl, rfl, rfl⟩

theorem State.SameRegisters.setP {s u : State} (h : s.SameRegisters u) (x : PLatches) : s.SameRegisters (u.setP x) :=
  { h with }

theorem State.SameRegisters.setPort {s u : State} (h : s.SameRegisters u) (x : PortState) :
    s.SameRegisters (u.setPort .P x) :=
  { h with }

/-! ### The steps of the gate -/

/-- The commands that claim positions: WRITE, RSVE and the streaming commands that run them (40_producer_commands.md
R96). -/
theorem claiming_cases {i : Instr} (hi : isWriting i = true ∨ isReserving i = true) :
    (∃ n, i = .write n) ∨ i = .rsve ∨ i = .readFrom ∨ i = .readFromB := by
  cases i <;> simp [isWriting, isReserving] at hi ⊢

/-- The label a command that has its claim goes on to. -/
def claimedLabel (i : Instr) : Label := if isWriting i then .W3 else .V3

/-- What becomes of a command whose wait ends with `EOS`. -/
def gateEos : Instr → State → Out
  | .readFrom => readFromAfterRsve ⟨.eos, 0, 0, []⟩
  | .readFromB => readFromBAfterWrite ⟨.eos, 0, 0, []⟩
  | _ => respond ⟨.eos, 0, 0, []⟩

/-- A streaming command answers `EOS` with its running total, WRITE and RSVE with 0 (R96; 42_macro_commands.md R118,
R119). -/
theorem gateEos_eq {i : Instr} (hi : isWriting i = true ∨ isReserving i = true) (s : State) :
    ∃ x, gateEos i s =
      respond ⟨.eos, if i = .readFrom ∨ i = .readFromB then s.p.total else 0, 0, []⟩ (s.setP x) := by
  rcases claiming_cases hi with ⟨n, rfl⟩ | rfl | rfl | rfl
  · exact ⟨s.p, rfl⟩
  · exact ⟨s.p, rfl⟩
  · exact ⟨s.p, rfl⟩
  · have htotal : (addTotalP 0 s).p.total = s.p.total := by simp [addTotalP]
    exact ⟨(addTotalP 0 s).p, congrArg (fun n => respond ⟨.eos, n, 0, []⟩ (addTotalP 0 s)) htotal⟩

/-- The latches a claim has after G1 (R96). -/
def State.claiming (s : State) : State :=
  s.setP
    { s.p with
      ppos := s.pseq.cursor,
      next := narrow (s.pseq.cursor.toInt + s.p.n.toInt),
      wrap := narrow (s.pseq.cursor.toInt + s.p.n.toInt - s.size.toInt),
      g := s.pseq.gate }

section
variable {s : State} {i : Instr} (ht : s.turn = .P) (hi : isWriting i = true ∨ isReserving i = true)
include ht hi

/-- The steps G1 to G4 of the claiming commands are those of the gate. -/
theorem exec_gate {l : Label} (hl : l ∈ [Label.G1, .G2, .G3, .G4]) (hp : s.phase = .run i l) :
    exec i s = gateStep (claimedLabel i) (gateEos i) l s := by
  simp only [List.mem_cons, List.not_mem_nil, or_false] at hl
  have hacc : accepts s.turn i = true := by
    rw [ht]
    rcases claiming_cases hi with ⟨n, rfl⟩ | rfl | rfl | rfl <;> rfl
  rw [exec_middle hp hacc]
  rcases claiming_cases hi with ⟨n, rfl⟩ | rfl | rfl | rfl
  all_goals rcases hl with rfl | rfl | rfl | rfl <;> rfl

/-- The step G1 when the claim keeps the premise of 20_memory.md R69. -/
theorem exec_G1 (hp : s.phase = .run i .G1) (hmax : s.pseq.cursor.toInt + s.p.n.toInt + s.size.toInt ≤ maxInt64) :
    exec i s =
      .next
        (s.claiming.setPort .P
          { s.pPort with
            phase :=
              .run i
                (if s.pseq.gate.toInt < s.pseq.cursor.toInt + s.p.n.toInt - s.size.toInt ∨
                    s.pseq.cursor.toInt < s.pseq.gate.toInt then .G2 else .G4) }) := by
  have hov := overflows_eq_false.2 hmax
  have hgoto := goto_eq_setPort (s := s.claiming) ht ((pPort_phase ht).trans hp)
  rw [exec_gate ht hi (by simp) hp]
  simp only [gateStep, hov, Bool.false_eq_true, if_false, gateWaits, Bool.or_eq_true, decide_eq_true_eq]
  split
  · exact hgoto .G2
  · exact hgoto .G4

/-- The step G2 when the sample `c` ends the wait: it is the new gate. -/
theorem exec_G2_claims {c : Word} (hp : s.phase = .run i .G2) (hc : s.sample = c) (hw : s.p.wrap.toInt ≤ c.toInt) :
    exec i s =
      .next
        (((s.setP { s.p with c := c }).setGate c).setPort .P { s.pPort with phase := .run i .G4, floor := c }) := by
  subst hc
  rw [exec_gate ht hi (by simp) hp]
  simp only [gateStep, noteSample_eq_setPort ht, hw, if_true]
  exact goto_eq_setPort
    (s := ((s.setPort .P { s.pPort with floor := s.sample }).setP { s.p with c := s.sample }).setGate s.sample)
    ht ((pPort_phase ht).trans hp) .G4

/-- The step G2 when the sample `c` does not end the wait: `DONE` is looked at next. -/
theorem exec_G2_waits {c : Word} (hp : s.phase = .run i .G2) (hc : s.sample = c) (hw : ¬ s.p.wrap.toInt ≤ c.toInt) :
    exec i s =
      .next ((s.setP { s.p with c := c }).setPort .P { s.pPort with phase := .run i .G3, floor := c }) := by
  subst hc
  rw [exec_gate ht hi (by simp) hp]
  simp only [gateStep, noteSample_eq_setPort ht, hw, if_false]
  exact goto_eq_setPort (s := (s.setPort .P { s.pPort with floor := s.sample }).setP { s.p with c := s.sample })
    ht ((pPort_phase ht).trans hp) .G3

theorem exec_G3_open (hp : s.phase = .run i .G3) (hd : s.done = false) :
    exec i s = .next (s.setPort .P { s.pPort with phase := .run i .G2 }) := by
  rw [exec_gate ht hi (by simp) hp, ← goto_eq_setPort ht ((pPort_phase ht).trans hp)]
  simp [gateStep, State.loadDone, hd]

/-- A wait that sees `DONE` ends the command and writes no register and no byte (R96, R100). -/
theorem exec_G3_closed (hp : s.phase = .run i .G3) (hd : s.done = true) :
    ∃ x, exec i s =
      .next
        ((s.setP x).setPort .P
          (s.pPort.answered ⟨.eos, if i = .readFrom ∨ i = .readFromB then s.p.total else 0, 0, []⟩)) := by
  obtain ⟨x, hx⟩ := gateEos_eq hi s
  have hstep : exec i s = gateEos i s := by
    rw [exec_gate ht hi (by simp) hp]
    simp [gateStep, State.loadDone, hd]
  exact ⟨x, hstep.trans (hx.trans (respond_eq_setPort (s := s.setP x) ht _))⟩

theorem exec_G4 (hp : s.phase = .run i .G4) :
    exec i s = .next (s.setPort .P { s.pPort with phase := .run i (claimedLabel i) }) := by
  rw [exec_gate ht hi (by simp) hp]
  exact goto_eq_setPort ht ((pPort_phase ht).trans hp) _

end

/-- Settles O12: the steps G1 to G4, one lemma each. -/
theorem gateSteps : Obligations.GateSteps := by
  intro i s ht hi
  refine ⟨fun hp hmax => exec_G1 ht hi hp hmax, fun hp => ?_, fun hp hd => exec_G3_open ht hi hp hd,
    fun hp hd => ?_, fun hp => exec_G4 ht hi hp⟩
  · split
    · next hw => exact exec_G2_claims ht hi hp rfl hw
    · next hw => exact exec_G2_waits ht hi hp rfl hw
  · obtain ⟨x, hx⟩ := exec_G3_closed ht hi hp hd
    exact ⟨_, hx, ((State.SameRegisters.refl s).setP x).setPort _, rfl⟩

section
variable {s t : State} {i : Instr} {l : Label} (hinv : s.Inv) (hcfg : s.cfgState = .ready) (ht : s.turn = .P)
include hinv hcfg ht

/-- What a sound state says of agent P in the middle of a command. -/
theorem State.Inv.at_label (hp : s.phase = .run i l) : s.ReadyInv ∧ s.PLabelInv i l := by
  have hr := hinv.ready hcfg
  obtain ⟨-, hl⟩ := hr.running hinv.params hp
  rw [ht] at hl
  exact ⟨hr, hl⟩

/-- In a sound state G1 waits exactly when the claim passes the gate: the gate is never ahead of the producer cursor
(R98). -/
theorem G1_target_of_inv (hi : isWriting i = true ∨ isReserving i = true) (hp : s.phase = .run i .G1)
    (hx : exec i s = .next t) :
    t.p.next.toInt = s.pseq.cursor.toInt + s.p.n.toInt ∧
      t.phase =
        .run i (if s.pseq.gate.toInt < s.pseq.cursor.toInt + s.p.n.toInt - s.size.toInt then .G2 else .G4) := by
  obtain ⟨hr, -, h0, -⟩ := hinv.at_label hcfg ht hp
  obtain ⟨hc0, hcp, -, -⟩ := hr.ring
  obtain ⟨-, hgc, -⟩ := hr.gate
  have hsize := (SizeInv.facts hr.size).1
  have hmax : s.pseq.cursor.toInt + s.p.n.toInt + s.size.toInt ≤ maxInt64 := by
    have hstep := hx
    rw [exec_gate ht hi (by simp) hp] at hstep
    rcases gateStep_next hstep with ⟨-, hov, -⟩ | ⟨⟨⟩, -⟩ | ⟨⟨⟩, -⟩ | ⟨⟨⟩, -⟩ | ⟨⟨⟩, -⟩ | ⟨⟨⟩, -⟩
    exact overflows_eq_false.1 hov
  rw [exec_G1 ht hi hp hmax] at hx
  cases hx
  have hlive : ¬ s.pseq.cursor.toInt < s.pseq.gate.toInt := by omega
  refine ⟨?_, ?_⟩
  · rw [setPort_p, State.claiming, setP_p]
    exact toInt_narrow _ (by unfold minInt64; omega) (by omega)
  · simp [State.phase, State.claiming, ht, hlive]

end

/-- Settles O14: where G1 goes (`G1_target_of_inv`), and the bounds of the gate and of the cursors. -/
theorem gateFacts : Obligations.GateFacts := by
  intro i s t hinv hcfg ht hi hp hx
  obtain ⟨hnext, hphase⟩ := G1_target_of_inv hinv hcfg ht hi hp hx
  have hr := hinv.ready hcfg
  obtain ⟨hc0, hcp, -, -⟩ := hr.ring
  obtain ⟨hg0, hgc, hpg⟩ := hr.gate
  have hwaits : t.phase = .run i .G2 ↔ s.pseq.gate.toInt < s.pseq.cursor.toInt + s.p.n.toInt - s.size.toInt := by
    rw [hphase]
    split <;> simp [*]
  have hclaims : t.phase = .run i .G4 ↔ s.pseq.cursor.toInt + s.p.n.toInt - s.size.toInt ≤ s.pseq.gate.toInt := by
    rw [hphase, ← not_lt]
    split <;> simp [*]
  refine ⟨by omega, hwaits, fun h => ⟨hnext ▸ hclaims.1 h, hgc⟩, fun h => hclaims.2 (by omega), fun h => hclaims.2 ?_⟩
  have hn : s.p.n.toInt = 0 := by simp [h]
  omega

/-- Without lag agent P's sample is the consumer cursor (20_memory.md R59). -/
theorem sample_eq_cseq {s : State} (ht : s.turn = .P) (hlag : s.params.sampleLag = .none) :
    s.sample = s.cseq.cursor := by
  simp [State.sample, hlag, ht, State.otherCursor]

/-- Settles O15: the sample is the consumer cursor, and a claim passes it exactly when it passes the free region. -/
theorem waitsExactlyWhileRoomIsShort : Obligations.WaitsExactlyWhileRoomIsShort := by
  intro i s t hinv hcfg hlag ht hi hp hx
  obtain ⟨-, -, hpos, hnext, hwrap, -⟩ := hinv.at_label hcfg ht hp
  rw [hpos] at hnext
  have hroom : s.p.wrap.toInt ≤ s.cseq.cursor.toInt ↔ s.p.n.toInt ≤ s.freeRegion := by
    unfold State.freeRegion State.length
    omega
  have hsample := sample_eq_cseq ht hlag
  rw [← not_le, ← hroom]
  by_cases hw : s.p.wrap.toInt ≤ s.cseq.cursor.toInt
  · cases (exec_G2_claims ht hi hp hsample hw).symm.trans hx
    simp [hw, State.phase, ht]
  · cases (exec_G2_waits ht hi hp hsample hw).symm.trans hx
    simp [hw, State.phase, ht]

/-! ### The steps of WRITE, RSVE and PUBL

One lemma per labelled step, for the command itself and for the streaming command that runs it (40_producer_commands.md
R92, R94, R95; 42_macro_commands.md R118, R119). -/

/-- The registers after U2: the bytes are published and the reservation has ended (R95). -/
def State.publishedRsv (s : State) : State :=
  (s.storePseq (narrow (s.rsv.pos.toInt + s.p.n.toInt))).setRsv { s.rsv with valid := false }

section
variable {s : State} {i : Instr} (ht : s.turn = .P)
include ht

theorem exec_W3 (hi : isWriting i = true) (hp : s.phase = .run i .W3) {m : Memory}
    (hm : ringCopy s.buf s.sizeNat (s.idx s.p.ppos) s.p.data = .ok m) :
    exec i s = .next ((s.setBuf m).setPort .P { s.pPort with phase := .run i .W4 }) := by
  refine Eq.trans ?_ (goto_eq_setPort (s := s.setBuf m) ht ((pPort_phase ht).trans hp) .W4)
  cases i with
  | write n =>
    rw [exec_middle hp (by rw [ht]; rfl)]
    simp [stepOf, writeStep, hm]
  | readFromB =>
    rw [exec_middle hp (by rw [ht]; rfl)]
    simp [stepOf, readFromBStep, writeStep, hm]
  | _ => cases hi

theorem exec_W4_write {n : Word} (hp : s.phase = .run (.write n) .W4) :
    exec (.write n) s = .next ((s.storePseq s.p.next).setPort .P (s.pPort.answered ⟨.ok, s.p.n, 0, []⟩)) :=
  (exec_middle hp (by rw [ht]; rfl)).trans (respond_eq_setPort (s := s.storePseq s.p.next) ht _)

theorem exec_W4_readFromB (hp : s.phase = .run .readFromB .W4) :
    exec .readFromB s =
      .next
        ((addTotalP s.p.n (s.storePseq s.p.next)).setPort .P { s.pPort with phase := .run .readFromB .E3 }) :=
  (exec_middle hp (by rw [ht]; rfl)).trans
    (goto_eq_setPort (s := addTotalP s.p.n (s.storePseq s.p.next)) ht ((pPort_phase ht).trans hp) .E3)

theorem exec_W1_readFromB (hp : s.phase = .run .readFromB .W1) (h0 : 0 ≤ s.p.n.toInt)
    (hle : s.p.n.toInt ≤ s.size.toInt) :
    exec .readFromB s = .next (s.setPort .P { s.acceptedPort with phase := .run .readFromB .G1 }) := by
  have hstep : exec .readFromB s = goto .G1 s.raiseFloor := by
    rw [exec_middle hp (by rw [ht]; rfl)]
    simp [stepOf, readFromBStep, writeStep, argError_eq_none.2 ⟨h0, hle⟩]
  rw [hstep, raiseFloor_eq_setPort ht]
  exact goto_eq_setPort (s := s.setPort .P s.acceptedPort) ht hp .G1

theorem exec_V3_rsve (hp : s.phase = .run .rsve .V3) :
    exec .rsve s =
      .next ((s.setRsv ⟨true, s.p.ppos, s.p.n⟩).setPort .P (s.pPort.answered ⟨.ok, s.p.n, s.p.ppos, []⟩)) :=
  (exec_middle hp (by rw [ht]; rfl)).trans (respond_eq_setPort (s := s.setRsv ⟨true, s.p.ppos, s.p.n⟩) ht _)

theorem exec_V3_readFrom (hp : s.phase = .run .readFrom .V3) :
    exec .readFrom s =
      .next ((s.setRsv ⟨true, s.p.ppos, s.p.n⟩).setPort .P { s.pPort with phase := .run .readFrom .F2 }) :=
  (exec_middle hp (by rw [ht]; rfl)).trans
    (goto_eq_setPort (s := s.setRsv ⟨true, s.p.ppos, s.p.n⟩) ht ((pPort_phase ht).trans hp) .F2)

theorem exec_U2_publ {k : Word} (hp : s.phase = .run (.publ k) .U2) :
    exec (.publ k) s = .next (s.publishedRsv.setPort .P (s.pPort.answered ⟨.ok, s.p.n, 0, []⟩)) :=
  (exec_middle hp (by rw [ht]; rfl)).trans (respond_eq_setPort (s := s.publishedRsv) ht _)

theorem exec_U2_readFrom (hp : s.phase = .run .readFrom .U2) :
    exec .readFrom s =
      .next ((addTotalP s.p.n s.publishedRsv).setPort .P { s.pPort with phase := .run .readFrom .F4 }) :=
  (exec_middle hp (by rw [ht]; rfl)).trans
    (goto_eq_setPort (s := addTotalP s.p.n s.publishedRsv) ht ((pPort_phase ht).trans hp) .F4)

theorem exec_V1_readFrom (hp : s.phase = .run .readFrom .V1) :
    exec .readFrom s =
      .next
        ((s.setP { s.p with ppos := s.pseq.cursor, n := narrow (reserveLen s s.pseq.cursor) }).setPort .P
          { s.acceptedPort with phase := .run .readFrom .G1 }) := by
  have hstep : exec .readFrom s = rsveStep readFromAfterRsve .V1 s.raiseFloor :=
    exec_middle hp (by rw [ht]; rfl)
  rw [hstep, raiseFloor_eq_setPort ht]
  exact goto_eq_setPort
    (s := (s.setPort .P s.acceptedPort).setP
      { s.p with ppos := s.pseq.cursor, n := narrow (reserveLen s s.pseq.cursor) }) ht hp .G1

end

/-- U1 stores a payload that fits a sound state's reservation, which never breaks the premise of 20_memory.md R69
(R95). -/
theorem publStep_U1_eq {s : State} {ret : Response → State → Out} (hsize : s.SizeInv) (hrsv : s.RsvInv)
    (h : s.Publishing) :
    publStep ret .U1 s = goto .U2 (s.setBuf (s.buf.write (s.idx s.rsv.pos) s.p.data)) := by
  obtain ⟨hv, hlen, hle⟩ := h
  obtain ⟨-, -, -, hidx, -, hmax⟩ := hrsv hv
  have hsz := (SizeInv.facts hsize).1
  have hov : overflows s (s.rsv.pos.toInt + s.p.n.toInt) = false := overflows_eq_false.2 (by omega)
  have hfits : s.idx s.rsv.pos + s.p.data.length ≤ s.sizeNat := by omega
  simp [publStep, hov, memWrite, hfits]

/-- Settles O17: the copy of W3 succeeds in a sound state; the other steps are computed. -/
theorem writeStoresAndPublishes : Obligations.WriteStoresAndPublishes := by
  intro i s ht hi
  refine ⟨fun hinv hcfg hp => ?_, ?_, ?_, ?_⟩
  · obtain ⟨hr, -, hops, -⟩ := hinv.at_label hcfg ht hp
    have hlen := GateOperands.data_length hops hi
    obtain ⟨-, -, hle, -⟩ := hops
    obtain ⟨hsize, -, -, -, hidx, -⟩ := SizeInv.facts hr.size
    obtain ⟨m, hm⟩ := ringCopy_total s.buf s.sizeNat (s.idx s.p.ppos) s.p.data (hidx _) (by omega)
    exact ⟨m, hm, exec_W3 ht hi hp hm⟩
  · rintro n rfl hp
    exact exec_W4_write ht hp
  · rintro rfl hp
    exact exec_W4_readFromB ht hp
  · rintro rfl hp h0 hle
    exact exec_W1_readFromB ht hp h0 hle

/-- Settles O18: the store of U1 fits the reservation in a sound state; the other steps are computed. -/
theorem reservationIsRecordedAndEnded : Obligations.ReservationIsRecordedAndEnded := by
  intro s ht
  refine ⟨exec_V3_rsve ht, exec_V3_readFrom ht, fun k => exec_U2_publ ht, exec_U2_readFrom ht, exec_V1_readFrom ht,
    fun hinv hcfg hp => ?_⟩
  obtain ⟨hr, -, hpub⟩ := hinv.at_label hcfg ht hp
  have hstep : exec .readFrom s = publStep readFromAfterPubl .U1 s.raiseFloor := exec_middle hp (by rw [ht]; rfl)
  rw [hstep, raiseFloor_eq_setPort ht,
    publStep_U1_eq (s := s.setPort .P s.acceptedPort) (ret := readFromAfterPubl) hr.size hr.rsv hpub]
  exact goto_eq_setPort
    (s := (s.setPort .P s.acceptedPort).setBuf (s.buf.write (s.idx s.rsv.pos) s.p.data)) ht hp .U2

/-! ### A command run alone -/

/-- Command `i` run alone from `s` is over, in `t`, within `m` steps. -/
def State.OverWithin (s : State) (i : Instr) (m : Nat) (t : State) : Prop := ∀ k, execAlone (k + m) i s = .next t

section
variable {s t u : State} {i : Instr} {l : Label} {m : Nat}

theorem overWithin_last (hx : exec i s = .next t) (ht : t.phase = .idle) : s.OverWithin i 1 t := fun k => by
  simp [execAlone, hx, ht]

theorem State.OverWithin.step (h : u.OverWithin i m t) (hx : exec i s = .next u) (hu : u.phase = .run i l) :
    s.OverWithin i (m + 1) t := fun k => by
  simp only [execAlone, hx, hu, reduceCtorEq, if_false]
  exact h k

theorem State.OverWithin.mono (h : s.OverWithin i m t) : s.OverWithin i (m + 1) t := fun k => by
  rw [← Nat.add_assoc, Nat.add_right_comm]
  exact h (k + 1)

theorem setPort_P_phase (ht : s.turn = .P) (x : PortState) : (s.setPort .P x).phase = x.phase :=
  (pPort_phase (s := s.setPort .P x) ht).symm

/-- G4 takes one step to where a claim is held. -/
theorem overWithin_G4 {x : PortState} (ht : s.turn = .P) (hi : isWriting i = true ∨ isReserving i = true)
    (h : (s.setPort .P { x with phase := .run i (claimedLabel i) }).OverWithin i m t) :
    (s.setPort .P { x with phase := .run i .G4 }).OverWithin i (m + 1) t :=
  h.step (exec_G4 (s := s.setPort .P _) ht hi (setPort_P_phase ht _)) (setPort_P_phase ht _)

end

/-! #### The gate -/

/-- The gate after a claim: refreshed to the consumer cursor if it had to sample it (R96). -/
def State.gateAfter (s : State) : Word :=
  if s.pseq.gate.toInt < s.pseq.cursor.toInt + s.p.n.toInt - s.size.toInt then s.cseq.cursor else s.pseq.gate

/-- The state in which the gate hands a claim over. `c` and `f` are the sample's latch and the bound of 20_memory.md
R59. -/
def State.claimed (s : State) (i : Instr) (c f : Word) : State :=
  ((s.claiming.setP { s.claiming.p with c := c }).setGate s.gateAfter).setPort .P
    { s.pPort with phase := .run i (claimedLabel i), floor := f }

/-- A claiming command is about to look at the gate, the claim keeps the premise of 20_memory.md R69, and no sample
lags. -/
structure State.AtG1 (s : State) (i : Instr) : Prop where
  turn : s.turn = .P
  claims : isWriting i = true ∨ isReserving i = true
  noLag : s.params.sampleLag = .none
  ring : s.RingInv
  gate : s.GateInv
  count : 0 ≤ s.p.n.toInt
  horizon : s.pseq.cursor.toInt + s.p.n.toInt + s.size.toInt ≤ maxInt64
  phase : s.phase = .run i .G1

section
variable {s : State} {i : Instr} (h : s.AtG1 i)
include h

/-- The consumer cursor reaches the wrap of a claim exactly when there is room (R98 (g)). -/
theorem State.AtG1.wrap_le : s.claiming.p.wrap.toInt ≤ s.cseq.cursor.toInt ↔ s.p.n.toInt ≤ s.freeRegion := by
  obtain ⟨hc0, hcp, hps, -⟩ := h.ring
  have hn := h.count
  have hmax := h.horizon
  have hsize := toInt_le_maxInt64 s.size
  have hwrap : s.claiming.p.wrap.toInt = s.pseq.cursor.toInt + s.p.n.toInt - s.size.toInt :=
    toInt_narrow _ (by unfold minInt64; unfold maxInt64 at hsize; omega) (by omega)
  unfold State.freeRegion State.length
  omega

/-- A claim that passes the gate is sampled for (R96). -/
theorem State.AtG1.waits (hw : s.pseq.gate.toInt < s.pseq.cursor.toInt + s.p.n.toInt - s.size.toInt) :
    exec i s = .next (s.claiming.setPort .P { s.pPort with phase := .run i .G2 }) := by
  rw [exec_G1 h.turn h.claims h.phase h.horizon, if_pos (.inl hw)]

/-- A claim that does not pass the gate is made (R96). -/
theorem State.AtG1.claims_at_once (hw : ¬ s.pseq.gate.toInt < s.pseq.cursor.toInt + s.p.n.toInt - s.size.toInt) :
    exec i s = .next (s.claiming.setPort .P { s.pPort with phase := .run i .G4 }) := by
  obtain ⟨-, hcp, -, -⟩ := h.ring
  obtain ⟨-, hgc, -⟩ := h.gate
  rw [exec_G1 h.turn h.claims h.phase h.horizon, if_neg (by omega)]

/-- With room the gate hands the claim over in at most three steps, by the gate or by the first sample (R93, R96). -/
theorem State.AtG1.room (hroom : s.p.n.toInt ≤ s.freeRegion) :
    ∃ c f, ∀ m t, (s.claimed i c f).OverWithin i m t → s.OverWithin i (m + 3) t := by
  have ht1 : s.claiming.turn = .P := h.turn
  by_cases hw : s.pseq.gate.toInt < s.pseq.cursor.toInt + s.p.n.toInt - s.size.toInt
  · have ht2 : ((s.claiming.setP { s.claiming.p with c := s.cseq.cursor }).setGate s.cseq.cursor).turn = .P := h.turn
    have hG2 := exec_G2_claims (s := s.claiming.setPort .P { s.pPort with phase := .run i .G2 }) h.turn h.claims
      (setPort_P_phase ht1 _) (sample_eq_cseq h.turn h.noLag) (h.wrap_le.2 hroom)
    refine ⟨s.cseq.cursor, s.cseq.cursor, fun m t hend => ?_⟩
    rw [State.claimed, State.gateAfter, if_pos hw] at hend
    have hG4 := overWithin_G4 (x := { s.pPort with floor := s.cseq.cursor }) ht2 h.claims hend
    exact (hG4.step hG2 (setPort_P_phase ht2 _)).step (h.waits hw) (setPort_P_phase ht1 _)
  · refine ⟨s.p.c, s.pPort.floor, fun m t hend => ?_⟩
    rw [State.claimed, State.gateAfter, if_neg hw] at hend
    have hG4 := overWithin_G4 (x := s.pPort) ht1 h.claims hend
    exact (hG4.step (h.claims_at_once hw) (setPort_P_phase ht1 _)).mono

/-- Without room and with `DONE` set the gate ends the command in its first iteration, no register and no byte changed
(R93 (h), R100). -/
theorem State.AtG1.closed (hroom : s.freeRegion < s.p.n.toInt) (hd : s.done = true) :
    ∃ t, s.OverWithin i 3 t ∧ s.SameRegisters t ∧ t.phase = .idle ∧
      t.pPort.responses =
        s.pPort.responses ++ [⟨.eos, if i = .readFrom ∨ i = .readFromB then s.p.total else 0, 0, []⟩] := by
  obtain ⟨-, hgc, -⟩ := h.gate
  have hw : s.pseq.gate.toInt < s.pseq.cursor.toInt + s.p.n.toInt - s.size.toInt := by
    unfold State.freeRegion State.length at hroom
    omega
  have ht1 : s.claiming.turn = .P := h.turn
  have ht2 : (s.claiming.setP { s.claiming.p with c := s.cseq.cursor }).turn = .P := h.turn
  have hG2 := exec_G2_waits (s := s.claiming.setPort .P { s.pPort with phase := .run i .G2 }) h.turn h.claims
    (setPort_P_phase ht1 _) (sample_eq_cseq h.turn h.noLag) (h.wrap_le.not.2 hroom.not_ge)
  obtain ⟨x, hG3⟩ := exec_G3_closed
    (s := (s.claiming.setP { s.claiming.p with c := s.cseq.cursor }).setPort .P
      { s.pPort with phase := .run i .G3, floor := s.cseq.cursor }) h.turn h.claims (setPort_P_phase ht2 _) hd
  have ht3 : (((s.claiming.setP { s.claiming.p with c := s.cseq.cursor }).setPort .P
      { s.pPort with phase := .run i .G3, floor := s.cseq.cursor }).setP x).turn = .P := h.turn
  have hidle := setPort_P_phase ht3
  refine ⟨_, ((overWithin_last hG3 (hidle _)).step hG2 (setPort_P_phase ht2 _)).step (h.waits hw)
    (setPort_P_phase ht1 _), ((((State.SameRegisters.refl s).setP _).setP _).setPort _).setP x |>.setPort _,
    hidle _, ?_⟩
  simp only [setPort_P_pPort, setPort_p, setP_p, PortState.answered, State.claiming]

end

/-! #### WRITE, RSVE and PUBL -/

/-- Acceptance, and the first step with it, of a command an IDLE port has (30_encoding.md R77, R86). -/
theorem exec_first {s : State} {i : Instr} (ht : s.turn = .P) (hp : s.phase = .idle) (hlegal : legal .P i s = true)
    (hfits : i.payloadFits s.size s.pPort.payload = true) :
    exec i s =
      stepOf i (firstLabel i)
        (latchOperands i (s.setPort .P { s.acceptedPort with phase := .run i (firstLabel i) })) := by
  simp [exec_eq_command, command, hp, ht, hlegal, hfits, accept]

/-- Agent P's latches with the operands of a WRITE or PUBL of `n` bytes (10_state.md R34). -/
def State.latched (s : State) (n : Word) : State := s.setP { s.p with n := n, data := s.pPort.payload }

/-- The state in which a WRITE whose count passes W1 comes to the gate. -/
def State.writeAtG1 (s : State) (n : Word) : State :=
  (s.latched n).setPort .P { s.acceptedPort with phase := .run (.write n) .G1 }

section
variable {s : State} (ht : s.turn = .P) (hp : s.phase = .idle) (hcfg : s.cfgState = .ready)
include ht

/-- A payload within range is latched whole (30_encoding.md R77). -/
theorem takenPayload_accepted {n : Word} (h0 : 0 ≤ n.toInt) (hle : n.toInt ≤ s.size.toInt) :
    takenPayload s.size n s.acceptedPort.payload = s.pPort.payload := by
  rw [takenPayload_of_range _ h0 hle, acceptedPort_payload, ht]
  rfl

include hp hcfg

theorem exec_write_first {n : Word} (hv : s.rsv.valid = false) (h0 : 0 ≤ n.toInt) (hle : n.toInt ≤ s.size.toInt)
    (hlen : (s.pPort.payload.length : Int) = n.toInt) :
    exec (.write n) s = .next (s.writeAtG1 n) := by
  rw [exec_first ht hp (legal_eq_true.2 ⟨hcfg, rfl, by simp [admitted, hv]⟩) (by simp [Instr.payloadFits, hlen])]
  simp only [stepOf, firstLabel, latchOperands, writeStep, setP_p, setP_size, setPort_p, setPort_size,
    setPort_P_pPort, argError_eq_none.2 ⟨h0, hle⟩, takenPayload_accepted ht h0 hle]
  exact goto_setPort (s := s.latched n) ht .G1

theorem exec_rsve_first (hv : s.rsv.valid = false) :
    exec .rsve s =
      .next
        ((s.setP { s.p with ppos := s.pseq.cursor, n := narrow (reserveLen s s.pseq.cursor) }).setPort .P
          { s.acceptedPort with phase := .run .rsve .G1 }) :=
  (exec_first ht hp (legal_eq_true.2 ⟨hcfg, rfl, by simp [admitted, hv]⟩) rfl).trans
    (goto_setPort (s := s.setP { s.p with ppos := s.pseq.cursor, n := narrow (reserveLen s s.pseq.cursor) }) ht .G1)

theorem exec_publ_first {k : Word} (hsize : s.SizeInv) (hrsv : s.RsvInv) (hv : s.rsv.valid = true) (h0 : 0 ≤ k.toInt)
    (hle : k.toInt ≤ s.rsv.len.toInt) (hlen : (s.pPort.payload.length : Int) = k.toInt) :
    exec (.publ k) s =
      .next
        (((s.latched k).setBuf (s.buf.write (s.idx s.rsv.pos) s.pPort.payload)).setPort .P
          { s.acceptedPort with phase := .run (.publ k) .U2 }) := by
  obtain ⟨-, -, -, hidx, -⟩ := hrsv hv
  rw [exec_first ht hp (legal_eq_true.2 ⟨hcfg, rfl, by simp [admitted, hv, h0, hle]⟩)
    (by simp [Instr.payloadFits, hlen])]
  simp only [stepOf, firstLabel, latchOperands, setPort_p, setPort_size, setPort_P_pPort,
    takenPayload_accepted ht h0 (n := k) (by omega)]
  have hU1 := publStep_U1_eq
    (s := (s.latched k).setPort .P { s.acceptedPort with phase := .run (.publ k) .U1 }) (ret := respond)
    hsize hrsv ⟨hv, hlen, hle⟩
  exact hU1.trans
    (goto_setPort (s := (s.latched k).setBuf (s.buf.write (s.idx s.rsv.pos) s.pPort.payload)) ht .U2)

end

/-- W3 and W4 of a WRITE that has its claim (R92). -/
theorem write_claimed {s : State} {n : Word} {m : Memory} (ht : s.turn = .P) (hp : s.phase = .run (.write n) .W3)
    (hm : ringCopy s.buf s.sizeNat (s.idx s.p.ppos) s.p.data = .ok m) :
    s.OverWithin (.write n) 2
      (((s.setBuf m).storePseq s.p.next).setPort .P (s.pPort.answered ⟨.ok, s.p.n, 0, []⟩)) := by
  have ht3 : (s.setBuf m).turn = .P := ht
  have ht4 : ((s.setBuf m).storePseq s.p.next).turn = .P := ht
  have hW4 := exec_W4_write (s := (s.setBuf m).setPort .P { s.pPort with phase := .run (.write n) .W4 }) ht
    (setPort_P_phase ht3 _)
  exact (overWithin_last hW4 (setPort_P_phase ht4 _)).step (exec_W3 ht rfl hp hm) (setPort_P_phase ht3 _)

/-- What a WRITE with room makes of the state `s` before G1: the run stored in `m`, published and answered, the gate
refreshed if it had to sample, and the rest kept (R92, R93). -/
structure State.Wrote (s : State) (m : Memory) (t : State) : Prop where
  phase : t.phase = .idle
  responses : t.pPort.responses = s.pPort.responses ++ [⟨.ok, s.p.n, 0, []⟩]
  cursor : t.pseq.cursor = narrow (s.pseq.cursor.toInt + s.p.n.toInt)
  gate : t.pseq.gate = s.gateAfter
  buf : t.buf = m
  mask : t.mask = s.mask
  cseq : t.cseq = s.cseq
  rsv : t.rsv = s.rsv
  tmp : t.tmp = s.tmp
  done : t.done = s.done

/-- The gate with room, then W3 and W4. -/
theorem write_after_W1 {s : State} {n : Word} {m : Memory} (h : s.AtG1 (.write n)) (hroom : s.p.n.toInt ≤ s.freeRegion)
    (hm : ringCopy s.buf s.sizeNat (s.idx s.pseq.cursor) s.p.data = .ok m) :
    ∃ t, s.OverWithin (.write n) 5 t ∧ s.Wrote m t := by
  have ht := h.turn
  obtain ⟨c, f, hover⟩ := h.room hroom
  have hend := hover 2 _ (write_claimed (s := s.claimed (.write n) c f) (m := m) ht (setPort_P_phase ht _) hm)
  refine ⟨_, hend, ?_⟩
  constructor
  case phase => simp [State.phase, PortState.answered, State.claimed, State.claiming, ht]
  all_goals simp [PortState.answered, State.claimed, State.claiming]

/-- A WRITE of a sound state that is accepted and whose count passes W1 comes to the gate. -/
theorem write_comes_to_G1 {s : State} {n : Word} (hinv : s.Inv) (hcfg : s.cfgState = .ready)
    (hlag : s.params.sampleLag = .none) (ht : s.turn = .P) (hp : s.phase = .idle) (hv : s.rsv.valid = false)
    (h0 : 0 ≤ n.toInt) (hle : n.toInt ≤ s.size.toInt) (hlen : (s.pPort.payload.length : Int) = n.toInt)
    (hfar : s.FarFromHorizon) :
    exec (.write n) s = .next (s.writeAtG1 n) ∧ (s.writeAtG1 n).AtG1 (.write n) := by
  have hr := hinv.ready hcfg
  have ht1 : (s.latched n).turn = .P := ht
  have hmax : s.pseq.cursor.toInt + n.toInt + s.size.toInt ≤ maxInt64 := by
    unfold State.FarFromHorizon at hfar
    omega
  exact ⟨exec_write_first ht hp hcfg hv h0 hle hlen, ht, .inl rfl, hlag, hr.ring, hr.gate, h0, hmax,
    setPort_P_phase ht1 _⟩

/-- Settles O28: the steps of a WRITE with room, and the bytes `ringCopy` leaves. -/
theorem writeRuns : Obligations.WriteRuns := by
  intro n s hinv hcfg hlag ht hp hv h0 hle hlen hroom hfar
  obtain ⟨hW1, hG1⟩ := write_comes_to_G1 hinv hcfg hlag ht hp hv h0 hle hlen hfar
  have hr := hinv.ready hcfg
  obtain ⟨hc0, hcp, -, -⟩ := hr.ring
  obtain ⟨hsize, -, -, -, hidx, -⟩ := SizeInv.facts hr.size
  have hmax : s.pseq.cursor.toInt + n.toInt + s.size.toInt ≤ maxInt64 := hG1.horizon
  obtain ⟨m, hm⟩ := ringCopy_total s.buf s.sizeNat (s.idx s.pseq.cursor) s.pPort.payload (hidx _) (by omega)
  obtain ⟨hholds, -⟩ := ringCopy_at hr.size (by omega) (by omega) (by omega) hm
  obtain ⟨t, hover, hw⟩ := write_after_W1 hG1 hroom hm
  refine ⟨t, (hover.step hW1 hG1.phase) 0, hw.phase, ?_, ?_, hw.gate, hholds.of_same_buf hw.buf hw.mask,
    fun a ha => ?_, hw.cseq, hw.rsv, hw.tmp, hw.done⟩
  · rw [hw.responses]
    simp [ht, State.writeAtG1, State.latched]
  · rw [hw.cursor]
    exact toInt_narrow (s.pseq.cursor.toInt + n.toInt) (by unfold minInt64; omega) (by omega)
  · rw [hw.buf]
    exact ringCopy_read_out _ _ _ _ _ _ hm ha

/-- Settles O29: W1, and the gate without room on a closed ring (`State.AtG1.closed`). -/
theorem writeEndsOnClosedRing : Obligations.WriteEndsOnClosedRing := by
  intro n s hinv hcfg hlag ht hp hv h0 hle hlen hroom hd hfar
  obtain ⟨hW1, hG1⟩ := write_comes_to_G1 hinv hcfg hlag ht hp hv h0 hle hlen hfar
  obtain ⟨t, hover, hsame, hidle, hresp⟩ := hG1.closed hroom hd
  refine ⟨t, (hover.step hW1 hG1.phase) 0, { hsame with }, hidle, ?_⟩
  rw [hresp]
  simp [ht, State.writeAtG1]

/-- The gate with room, then V3: the reservation is recorded and answered, and the rest kept (R94). -/
theorem rsve_after_V1 {s : State} (h : s.AtG1 .rsve) (hroom : s.p.n.toInt ≤ s.freeRegion) :
    ∃ t, s.OverWithin .rsve 4 t ∧ t.phase = .idle ∧
      t.pPort.responses = s.pPort.responses ++ [⟨.ok, s.p.n, s.pseq.cursor, []⟩] ∧
      t.rsv = ⟨true, s.pseq.cursor, s.p.n⟩ ∧ t.pseq.cursor = s.pseq.cursor ∧ t.buf = s.buf ∧ t.cseq = s.cseq ∧
      t.tmp = s.tmp ∧ t.done = s.done := by
  have ht := h.turn
  obtain ⟨c, f, hover⟩ := h.room hroom
  have ht3 : ((s.claimed .rsve c f).setRsv ⟨true, s.pseq.cursor, s.p.n⟩).turn = .P := ht
  have hV3 := exec_V3_rsve (s := s.claimed .rsve c f) ht (setPort_P_phase ht _)
  have hidle := setPort_P_phase ht3 ((s.claimed .rsve c f).pPort.answered ⟨.ok, s.p.n, s.pseq.cursor, []⟩)
  refine ⟨_, hover 1 _ (overWithin_last hV3 hidle), hidle, ?_⟩
  simp [PortState.answered, State.claimed, State.claiming]

/-- Settles O30: V1, then the steps of an RSVE with room. -/
theorem reserveRuns : Obligations.ReserveRuns := by
  intro s len hinv hcfg hlag ht hp hv hlen hroom hfar
  have hr := hinv.ready hcfg
  obtain ⟨hn, h1, -, -, hle⟩ := reserveLen_bounds (hr.shared hinv.params) s.pseq.cursor
  have hV1 := exec_rsve_first ht hp hcfg hv
  rw [reserveLen, ← hlen] at hn h1 hle hV1
  have h0 : 0 ≤ (narrow len).toInt := by omega
  have hmax : s.pseq.cursor.toInt + (narrow len).toInt + s.size.toInt ≤ maxInt64 := by
    unfold State.FarFromHorizon at hfar
    omega
  have ht1 : (s.setP { s.p with ppos := s.pseq.cursor, n := narrow len }).turn = .P := ht
  have hG1 : ((s.setP { s.p with ppos := s.pseq.cursor, n := narrow len }).setPort .P
      { s.acceptedPort with phase := .run .rsve .G1 }).AtG1 .rsve :=
    ⟨ht, .inr rfl, hlag, hr.ring, hr.gate, h0, hmax, setPort_P_phase ht1 _⟩
  obtain ⟨t, hover, hidle, hresp, hrsv, hcursor, hbuf, hcseq, htmp, hdone⟩ := rsve_after_V1 hG1 (hn.trans_le hroom)
  refine ⟨t, (hover.step hV1 hG1.phase) 0, hidle, ?_, hrsv, h1, hcursor, hbuf, hcseq, htmp, hdone⟩
  rw [hresp]
  simp [ht]

/-- U2 of a PUBL: the bytes are published and answered, the reservation has ended, and the rest is kept (R95). -/
theorem publ_after_U1 {s : State} {k : Word} (ht : s.turn = .P) (hp : s.phase = .run (.publ k) .U2) :
    ∃ t, s.OverWithin (.publ k) 1 t ∧ t.phase = .idle ∧
      t.pPort.responses = s.pPort.responses ++ [⟨.ok, s.p.n, 0, []⟩] ∧
      t.pseq.cursor = narrow (s.rsv.pos.toInt + s.p.n.toInt) ∧ t.pseq.gate = s.pseq.gate ∧ t.rsv.valid = false ∧
      t.buf = s.buf ∧ t.mask = s.mask ∧ t.cseq = s.cseq ∧ t.tmp = s.tmp ∧ t.done = s.done := by
  have ht1 : s.publishedRsv.turn = .P := ht
  have hidle := setPort_P_phase ht1 (s.pPort.answered ⟨.ok, s.p.n, 0, []⟩)
  refine ⟨_, overWithin_last (exec_U2_publ ht hp) hidle, hidle, ?_⟩
  simp [PortState.answered, State.publishedRsv]

/-- Settles O31: U1 stores within the reservation and U2 publishes; the store is a `ringCopy` that does not wrap. -/
theorem publishRuns : Obligations.PublishRuns := by
  intro k s hinv hcfg ht hp hv h0 hle hlen
  have hr := hinv.ready hcfg
  obtain ⟨hpos, -, -, hidx, -, hmax⟩ := hr.rsv hv
  obtain ⟨hc0, hcp, -, -⟩ := hr.ring
  have hsize := (SizeInv.facts hr.size).1
  have hU1 := exec_publ_first ht hp hcfg hr.size hr.rsv hv h0 hle hlen
  rw [hpos] at hidx hmax hU1
  have hm := ringCopy_contiguous s.buf s.sizeNat (s.idx s.pseq.cursor) s.pPort.payload (by omega)
  obtain ⟨hholds, -⟩ := ringCopy_at hr.size (by omega) (by omega) (by omega) hm
  generalize s.buf.write (s.idx s.pseq.cursor) s.pPort.payload = m at hm hholds hU1
  have ht1 : ((s.latched k).setBuf m).turn = .P := ht
  have hU2 := setPort_P_phase ht1 { s.acceptedPort with phase := .run (.publ k) .U2 }
  obtain ⟨t, hover, hidle, hresp, hcursor, hgate, hrsv, hbuf, hmask, hcseq, htmp, hdone⟩ := publ_after_U1
    (s := ((s.latched k).setBuf m).setPort .P { s.acceptedPort with phase := .run (.publ k) .U2 }) ht hU2
  refine ⟨t, (hover.step hU1 hU2) 0, hidle, ?_, ?_, hgate, hrsv, hholds.of_same_buf hbuf hmask, fun a ha => ?_,
    hcseq, htmp, hdone⟩
  · rw [hresp]
    simp [ht, State.latched]
  · rw [hcursor]
    change (narrow (s.rsv.pos.toInt + k.toInt)).toInt = _
    rw [hpos]
    exact toInt_narrow _ (by unfold minInt64; omega) (by omega)
  · rw [hbuf]
    exact ringCopy_read_out _ _ _ _ _ _ hm ha

end Sys2Proof.Machine
end

section
/-! PROOFS, family 41_consumer_commands.md. The steps of the consumer wait and of READ, PEEK and COMMIT with their exact
next states, and these commands run alone. -/

namespace Sys2Proof.Machine

/-! ### A step of agent C -/

/-- `s` with agent C's own part replaced: its latches and its port. -/
def State.withC (s : State) (c : CLatches) (x : PortState) : State := { s with c := c, cPort := x }

section
variable {s : State} {i : Instr} {l : Label} (ht : s.turn = .C)
include ht

theorem cPort_phase : s.phase = s.cPort.phase := by
  rw [State.phase, ht]
  rfl

theorem phase_of_cPort {p : Phase} (hp : s.cPort.phase = p) : s.phase = p :=
  (cPort_phase ht).trans hp

theorem goto_eq_withC (hp : s.cPort.phase = .run i l) (k : Label) :
    goto k s = .next (s.withC s.c { s.cPort with phase := .run i k }) := by
  rw [goto, State.goto, ht, port_C, hp]
  rfl

theorem respond_eq_withC (r : Response) : respond r s = .next (s.withC s.c (s.cPort.answered r)) := by
  rw [respond, State.respond, ht]
  rfl

theorem noteSample_eq_withC : s.noteSample = s.withC s.c { s.cPort with floor := s.sample } := by
  rw [State.noteSample, ht]
  rfl

theorem raiseFloor_eq_withC : s.raiseFloor = s.withC s.c s.acceptedPort := by
  rw [State.raiseFloor, ht]
  rfl

theorem acceptedPort_responses_C : s.acceptedPort.responses = s.cPort.responses := by
  rw [acceptedPort_responses, ht, port_C]

/-- Without lag agent C's sample is the producer cursor (20_memory.md R59). -/
theorem sample_eq_pseq (hlag : s.params.sampleLag = .none) : s.sample = s.pseq.cursor := by
  simp [State.sample, observe, hlag, ht, State.otherCursor]

/-- In the middle of a command of the C-port agent C takes the step its phase names. -/
theorem exec_middle_C (ha : accepts .C i = true) (hp : s.cPort.phase = .run i l) : exec i s = stepOf i l s :=
  exec_middle (phase_of_cPort ht hp) (by rwa [ht])

/-- Acceptance is merged with the first step: an IDLE port takes the step of the state right after acceptance. No
reservation and no payload stands against a consumer command (30_encoding.md R77, R86; log entry 7). -/
theorem exec_accepted_C (hi : isConsumer i = true) (hp : s.phase = .idle) (hcfg : s.cfgState = .ready) :
    exec i s =
      exec i (s.withC (latchOperands i s).c { s.acceptedPort with phase := .run i (firstLabel i) }) := by
  have hacc : accepts .C i = true := by cases i <;> trivial
  have hadm : admitted s.rsv i = true := by cases i <;> trivial
  have hfits : i.payloadFits s.size s.cPort.payload = true := by cases i <;> trivial
  have hlegal : legal .C i s = true := legal_eq_true.2 ⟨hcfg, hacc, hadm⟩
  have haccept : accept i (firstLabel i) s =
      s.withC (latchOperands i s).c { s.acceptedPort with phase := .run i (firstLabel i) } := by
    rw [accept, ht]
    cases i <;> trivial
  have hfirst : exec i s = stepOf i (firstLabel i) (accept i (firstLabel i) s) := by
    simp only [exec_eq_command, command, hp, ht, hlegal, port_C, hfits, if_true]
  rw [hfirst, haccept]
  exact (exec_middle_C (s := s.withC (latchOperands i s).c { s.acceptedPort with phase := .run i (firstLabel i) })
    ht hacc rfl).symm

end

/-! ### The steps of the consumer wait (41_consumer_commands.md R107) -/

/-- The label a command goes on to when its wait has ended with data. -/
def dataLabel : Instr → Label
  | .read _ => .A3
  | _ => .B3

/-- What becomes of a command whose wait ends with `EOS`. -/
def waitEos : Instr → State → Out
  | .writeTo => writeToAfterPeek ⟨.eos, 0, 0, []⟩
  | _ => respond ⟨.eos, 0, 0, []⟩

/-- WRITETO answers `EOS` with its running total, READ and PEEK with 0 (R107; 42_macro_commands.md R120). -/
theorem waitEos_eq (i : Instr) (s : State) :
    waitEos i s = respond ⟨.eos, if i = .writeTo then s.c.total else 0, 0, []⟩ s := by
  cases i <;> rfl

section
variable {s : State} {i : Instr} (ht : s.turn = .C) (hi : hasWait .C i = true)
include ht hi

/-- The steps K1 to K4 of the commands that wait for data are those of the consumer wait. -/
theorem exec_cwait {l : Label} (hl : l ∈ [Label.K1, .K2, .K3, .K4]) (hp : s.cPort.phase = .run i l) :
    exec i s = cwaitStep (dataLabel i) (waitEos i) l s := by
  simp only [List.mem_cons, List.not_mem_nil, or_false] at hl
  cases i with
  | read n | peek n | writeTo =>
    rw [exec_middle_C ht rfl hp]
    rcases hl with rfl | rfl | rfl | rfl <;> rfl
  | _ => cases hi

theorem exec_K1 (hp : s.cPort.phase = .run i .K1) :
    exec i s = .next (s.withC { s.c with cpos := s.cseq.cursor } { s.cPort with phase := .run i .K2 }) := by
  rw [exec_cwait ht hi (by simp) hp]
  exact goto_eq_withC (s := s.setC { s.c with cpos := s.cseq.cursor }) ht hp .K2

/-- The step K2 with the sample `v`: data wins over close (R107). -/
theorem exec_K2 {v : Word} (hp : s.cPort.phase = .run i .K2) (hv : s.sample = v) :
    exec i s =
      .next
        (s.withC { s.c with ppos := v }
          { s.cPort with phase := .run i (if s.c.cpos.toInt < v.toInt then .K4 else .K3), floor := v }) := by
  subst hv
  have hgoto := goto_eq_withC (s := s.withC { s.c with ppos := s.sample } { s.cPort with floor := s.sample }) ht hp
  rw [exec_cwait ht hi (by simp) hp]
  simp only [cwaitStep, noteSample_eq_withC ht]
  split
  · exact hgoto .K4
  · exact hgoto .K3

theorem exec_K3_open (hp : s.cPort.phase = .run i .K3) (hd : s.done = false) :
    exec i s = .next (s.bumpCwait.withC s.c { s.cPort with phase := .run i .K2 }) := by
  rw [exec_cwait ht hi (by simp) hp]
  simp only [cwaitStep, State.loadDone, hd, Bool.false_eq_true, if_false]
  exact goto_eq_withC (s := s.bumpCwait) ht hp .K2

theorem exec_K3_closed (hp : s.cPort.phase = .run i .K3) (hd : s.done = true) :
    exec i s =
      .next
        (s.bumpCwait.withC s.c
          (s.cPort.answered ⟨.eos, if i = .writeTo then s.c.total else 0, 0, []⟩)) := by
  rw [exec_cwait ht hi (by simp) hp]
  simp only [cwaitStep, State.loadDone, hd, if_true, waitEos_eq]
  exact respond_eq_withC (s := s.bumpCwait) ht _

theorem exec_K4 (hp : s.cPort.phase = .run i .K4) :
    exec i s =
      .next
        (s.withC { s.c with avail := narrow (s.c.ppos.toInt - s.c.cpos.toInt) }
          { s.cPort with phase := .run i (dataLabel i) }) := by
  rw [exec_cwait ht hi (by simp) hp]
  exact goto_eq_withC (s := s.setC { s.c with avail := narrow (s.c.ppos.toInt - s.c.cpos.toInt) }) ht hp _

end

/-- Settles O13: the steps K1 to K4, one lemma each. -/
theorem consumerWaitSteps : Obligations.ConsumerWaitSteps := by
  intro i s ht hi
  rw [cPort_phase ht]
  have hwait : hasWait .C i = true := by rcases hi with ⟨n, rfl⟩ | ⟨n, rfl⟩ | rfl <;> rfl
  refine ⟨exec_K1 ht hwait, fun hp => exec_K2 ht hwait hp rfl, exec_K3_open ht hwait, exec_K3_closed ht hwait,
    fun after hafter hp => ?_⟩
  have hlabel : dataLabel i = after := by
    rcases hafter with ⟨⟨n, rfl⟩, rfl⟩ | ⟨hread, rfl⟩
    · rfl
    · rcases hi with ⟨n, rfl⟩ | ⟨n, rfl⟩ | rfl
      · exact absurd rfl (hread n)
      · rfl
      · rfl
  exact hlabel ▸ exec_K4 ht hwait hp

/-! ### The steps before the wait

A1 and B1 test the count (R108, R110), and T0 starts the inner PEEK of WRITETO (42_macro_commands.md R120). -/

section
variable {s : State} {n : Word} (ht : s.turn = .C)
include ht

theorem exec_A1 (hp : s.cPort.phase = .run (.read n) .A1) (h0 : 0 ≤ s.c.n.toInt) :
    exec (.read n) s = .next (s.withC s.c { s.cPort with phase := .run (.read n) .K1 }) := by
  rw [exec_middle_C ht rfl hp, ← goto_eq_withC ht hp]
  simp only [stepOf, readStep, h0.not_gt, if_false]

theorem exec_B1_peek (hp : s.cPort.phase = .run (.peek n) .B1) (h0 : 0 ≤ s.c.n.toInt)
    (hle : s.c.n.toInt ≤ s.size.toInt) :
    exec (.peek n) s = .next (s.withC s.c { s.cPort with phase := .run (.peek n) .K1 }) := by
  rw [exec_middle_C ht rfl hp, ← goto_eq_withC ht hp]
  simp only [stepOf, peekStep, argError_eq_none.2 ⟨h0, hle⟩]

theorem exec_T0 (hp : s.cPort.phase = .run .writeTo .T0) :
    exec .writeTo s =
      .next
        (s.withC { s.c with total := 0, n := narrow s.params.wblk } { s.cPort with phase := .run .writeTo .B1 }) :=
  (exec_middle_C ht rfl hp).trans
    (goto_eq_withC (s := s.setC { s.c with total := 0, n := narrow s.params.wblk }) ht hp .B1)

/-- The inner PEEK of WRITETO starts as one that is presented there does (42_macro_commands.md R123). -/
theorem exec_B1_writeTo (hp : s.cPort.phase = .run .writeTo .B1) (h0 : 0 ≤ s.c.n.toInt)
    (hle : s.c.n.toInt ≤ s.size.toInt) :
    exec .writeTo s = .next (s.withC s.c { s.acceptedPort with phase := .run .writeTo .K1 }) := by
  have hacc : s.acceptedPort.phase = .run .writeTo .B1 := (acceptedPort_phase s).trans (phase_of_cPort ht hp)
  rw [exec_middle_C ht rfl hp]
  simp only [stepOf, writeToStep, peekStep, raiseFloor_size, raiseFloor_c, argError_eq_none.2 ⟨h0, hle⟩]
  rw [raiseFloor_eq_withC ht]
  exact goto_eq_withC (s := s.withC s.c s.acceptedPort) ht hacc .K1

end

/-! ### The steps of COMMIT (R112) -/

section
variable {s : State} {n : Word} (ht : s.turn = .C)
include ht

/-- The step M1 when the argument test fails (R112; 60_exceptions.md R136). -/
theorem exec_M1_error {e : Status} (hp : s.cPort.phase = .run (.commit n) .M1)
    (he : argError s.size.toInt s.c.n.toInt = some e) :
    exec (.commit n) s = .next (s.withC s.c (s.cPort.answered ⟨e, 0, 0, []⟩)) := by
  rw [exec_middle_C ht rfl hp, ← respond_eq_withC ht]
  simp only [stepOf, commitStep, he]

theorem exec_M1 (hp : s.cPort.phase = .run (.commit n) .M1) (h0 : 0 ≤ s.c.n.toInt) (hle : s.c.n.toInt ≤ s.size.toInt) :
    exec (.commit n) s = .next (s.withC s.c { s.cPort with phase := .run (.commit n) .M2 }) := by
  rw [exec_middle_C ht rfl hp, ← goto_eq_withC ht hp]
  simp only [stepOf, commitStep, argError_eq_none.2 ⟨h0, hle⟩]

/-- The step M2 when the sample `v` shows too little data (R112). -/
theorem exec_M2_short {v : Word} (hp : s.cPort.phase = .run (.commit n) .M2) (hv : s.sample = v)
    (hw : v.toInt - s.cseq.cursor.toInt < s.c.n.toInt) :
    exec (.commit n) s =
      .next
        (s.withC { s.c with cpos := s.cseq.cursor, ppos := v }
          { s.cPort.answered ⟨.insuf, 0, 0, []⟩ with floor := v }) := by
  subst hv
  rw [exec_middle_C ht rfl hp]
  simp only [stepOf, commitStep, noteSample_eq_withC ht, hw.not_ge, if_false]
  exact respond_eq_withC
    (s := s.withC { s.c with cpos := s.cseq.cursor, ppos := s.sample } { s.cPort with floor := s.sample }) ht _

/-- The step M2 when the sample `v` shows enough data (R112). -/
theorem exec_M2_enough {v : Word} (hp : s.cPort.phase = .run (.commit n) .M2) (hv : s.sample = v)
    (hw : s.c.n.toInt ≤ v.toInt - s.cseq.cursor.toInt) :
    exec (.commit n) s =
      .next
        (s.withC { s.c with cpos := s.cseq.cursor, ppos := v }
          { s.cPort with phase := .run (.commit n) .M3, floor := v }) := by
  subst hv
  rw [exec_middle_C ht rfl hp]
  simp only [stepOf, commitStep, noteSample_eq_withC ht, hw, if_true]
  exact goto_eq_withC
    (s := s.withC { s.c with cpos := s.cseq.cursor, ppos := s.sample } { s.cPort with floor := s.sample }) ht hp _

theorem exec_M3 (hp : s.cPort.phase = .run (.commit n) .M3) :
    exec (.commit n) s =
      .next
        ((s.storeCseq (narrow (s.c.cpos.toInt + s.c.n.toInt))).withC s.c (s.cPort.answered ⟨.ok, s.c.n, 0, []⟩)) :=
  (exec_middle_C ht rfl hp).trans
    (respond_eq_withC (s := s.storeCseq (narrow (s.c.cpos.toInt + s.c.n.toInt))) ht _)

end

/-- Settles O21: the steps M1 to M3, one lemma each; the argument test is computed in its three ranges. -/
theorem commitSteps : Obligations.CommitSteps := by
  intro n s ht
  rw [cPort_phase ht]
  refine ⟨fun hp hneg => exec_M1_error ht hp (by simp [argError, hneg]),
    fun hp h0 hfull => exec_M1_error ht hp (by simp [argError, h0.not_gt, hfull]), exec_M1 ht,
    fun hp => exec_M2_short ht hp rfl, fun hp => exec_M2_enough ht hp rfl, exec_M3 ht⟩

/-! ### The steps of READ (R108) -/

/-- The state after A3 took the bytes `v`. -/
def State.copied (s : State) (v : List Byte) : State :=
  s.setC { s.c with start := narrow (s.idx s.c.cpos), m := narrow v.length, view := v }

section
variable {s : State} {i : Instr} {l : Label}

/-- What a sound state says of agent C in the middle of a command. -/
theorem State.Inv.at_cLabel (hinv : s.Inv) (hcfg : s.cfgState = .ready) (ht : s.turn = .C) (hp : s.phase = .run i l) :
    s.SharedInv ∧ s.CLabelInv i l := by
  have hr := hinv.ready hcfg
  obtain ⟨-, hl⟩ := hr.running hinv.params hp
  rw [ht] at hl
  exact ⟨hr.shared hinv.params, hl⟩

/-- A READ that holds data takes the unread bytes up to its capacity and to the physical end (R108). -/
theorem exec_A3 {cap : Word} (ht : s.turn = .C) (hp : s.cPort.phase = .run (.read cap) .A3) (h : s.SharedInv)
    (hn : 0 ≤ s.c.n.toInt) (hd : s.DataHeld) :
    ∃ v, (v.length : Int) = min (min s.c.n.toInt s.c.avail.toInt) (s.size.toInt - s.idx s.c.cpos) ∧
      s.Holds s.c.cpos.toInt v ∧
      exec (.read cap) s =
        .next ((s.copied v).withC (s.copied v).c { s.cPort with phase := .run (.read cap) .A4 }) := by
  obtain ⟨⟨hpos, hlt, hle⟩, havail⟩ := hd
  obtain ⟨hsize, -, -, -, hidx, -⟩ := SizeInv.facts h.size
  have hstart := hidx s.c.cpos
  obtain ⟨m, hm⟩ : ∃ m : Nat, (m : Int) = readLen s.c.n.toInt s.c.avail.toInt s.size.toInt (s.idx s.c.cpos) :=
    ⟨(readLen s.c.n.toInt s.c.avail.toInt s.size.toInt (s.idx s.c.cpos)).toNat, by unfold readLen; omega⟩
  have hlen := hm
  unfold readLen at hlen
  obtain ⟨v, hv, rfl, hh⟩ := SharedInv.memRead_unread h (n := m) (by rw [← hpos]; omega) (by rw [← hpos]; omega)
  rw [← hpos] at hv hh
  refine ⟨v, hlen, hh, ?_⟩
  rw [exec_middle_C ht rfl hp]
  simp only [stepOf, readStep, ← hm, Int.toNat_natCast, hv]
  exact goto_eq_withC (s := s.copied v) ht hp .A4

theorem exec_A4 {cap : Word} (ht : s.turn = .C) (hp : s.cPort.phase = .run (.read cap) .A4) :
    exec (.read cap) s =
      .next
        ((s.storeCseq (narrow (s.c.cpos.toInt + s.c.m.toInt))).withC s.c
          (s.cPort.answered ⟨.ok, s.c.m, 0, s.c.view⟩)) :=
  (exec_middle_C ht rfl hp).trans
    (respond_eq_withC (s := s.storeCseq (narrow (s.c.cpos.toInt + s.c.m.toInt))) ht _)

end

/-- Settles O19: A3 of a sound state holds data to copy (`exec_A3`); A4 is computed. -/
theorem readCopiesAndRetires : Obligations.ReadCopiesAndRetires := by
  intro cap s ht
  refine ⟨fun hinv hcfg hp => ?_, fun hp => exec_A4 ht ((cPort_phase ht).symm.trans hp)⟩
  obtain ⟨h, -, hn, hd⟩ := hinv.at_cLabel hcfg ht hp
  exact exec_A3 ht ((cPort_phase ht).symm.trans hp) h hn hd

/-! ### A consumer command run alone -/

/-- The state in which a wait that samples `PSEQ.cursor` hands data over. `c` and `x` are the latches and the port agent
C entered the wait with. -/
def State.withData (s : State) (i : Instr) (c : CLatches) (x : PortState) : State :=
  s.withC { c with cpos := s.cseq.cursor, ppos := s.pseq.cursor, avail := narrow s.length }
    { x with phase := .run i (dataLabel i), floor := s.pseq.cursor }

section
variable {s t u : State} {i : Instr} {l : Label} {m : Nat}

theorem overWithin_last_C (hx : exec i s = .next t) (ht : t.turn = .C) (hidle : t.cPort.phase = .idle) :
    s.OverWithin i 1 t :=
  overWithin_last hx (phase_of_cPort ht hidle)

theorem State.OverWithin.step_C (h : u.OverWithin i m t) (hx : exec i s = .next u) (ht : u.turn = .C)
    (hp : u.cPort.phase = .run i l) : s.OverWithin i (m + 1) t :=
  h.step hx (phase_of_cPort ht hp)

/-- Command `i` run alone from `s` ends within `m` steps and answers `r`. What it leaves is `u`, but for agent C's own
part. -/
def State.EndsAlone (s : State) (i : Instr) (m : Nat) (r : Response) (u : State) : Prop :=
  ∃ c, ∃ x : PortState, s.OverWithin i m (u.withC c (x.answered r)) ∧ x.responses = s.cPort.responses

theorem State.EndsAlone.run {r : Response} (h : s.EndsAlone i m r u) (ht : u.turn = .C) :
    ∃ c x, execAlone m i s = .next (u.withC c x) ∧ (u.withC c x).phase = .idle ∧
      x.responses = s.cPort.responses ++ [r] := by
  obtain ⟨c, x, hover, hx⟩ := h
  refine ⟨c, x.answered r, ?_, phase_of_cPort (s := u.withC c (x.answered r)) ht rfl, congrArg (· ++ [r]) hx⟩
  rw [← Nat.zero_add m]
  exact hover 0

end

section
variable {s t : State} {i : Instr} {c : CLatches} {x : PortState} {m : Nat} (ht : s.turn = .C)
include ht

section
variable (hlag : s.params.sampleLag = .none) (hi : hasWait .C i = true)
include hlag hi

/-- A wait comes to its first look at the sample in two steps (R107). -/
theorem wait_samples
    (h : (s.withC { c with cpos := s.cseq.cursor, ppos := s.pseq.cursor }
      { x with
        phase := .run i (if s.cseq.cursor.toInt < s.pseq.cursor.toInt then .K4 else .K3),
        floor := s.pseq.cursor }).OverWithin i m t) :
    (s.withC c { x with phase := .run i .K1 }).OverWithin i (m + 2) t := by
  have hK1 := exec_K1 (s := s.withC c { x with phase := .run i .K1 }) ht hi rfl
  have hK2 := exec_K2 (s := s.withC { c with cpos := s.cseq.cursor } { x with phase := .run i .K2 }) ht hi rfl
    (sample_eq_pseq ht hlag)
  exact (h.step_C hK2 ht rfl).step_C hK1 ht rfl

/-- With data present a wait hands it over in three steps. -/
theorem wait_with_data (hlt : s.cseq.cursor.toInt < s.pseq.cursor.toInt)
    (h : (s.withData i c x).OverWithin i m t) :
    (s.withC c { x with phase := .run i .K1 }).OverWithin i (m + 3) t := by
  refine wait_samples ht hlag hi ?_
  rw [if_pos hlt]
  exact h.step_C
    (exec_K4
      (s := s.withC { c with cpos := s.cseq.cursor, ppos := s.pseq.cursor }
        { x with phase := .run i .K4, floor := s.pseq.cursor }) ht hi rfl)
    ht rfl

/-- On a closed and empty ring a wait ends its command after one sample (R107; 43_common_commands.md R129). -/
theorem wait_on_closed_empty (hempty : s.cseq.cursor = s.pseq.cursor) (hd : s.done = true) :
    (s.withC c { x with phase := .run i .K1 }).OverWithin i 3
      (s.bumpCwait.withC { c with cpos := s.cseq.cursor, ppos := s.pseq.cursor }
        (PortState.answered { x with floor := s.pseq.cursor }
          ⟨.eos, if i = .writeTo then c.total else 0, 0, []⟩)) := by
  refine wait_samples ht hlag hi ?_
  rw [if_neg (by simp [hempty])]
  exact overWithin_last_C
    (exec_K3_closed
      (s := s.withC { c with cpos := s.cseq.cursor, ppos := s.pseq.cursor }
        { x with phase := .run i .K3, floor := s.pseq.cursor }) ht hi rfl hd)
    ht rfl

end

/-! #### The first steps -/

/-- The state in which a WRITETO that was accepted starts its inner PEEK (42_macro_commands.md R120). -/
def State.atB1 (s : State) : State :=
  s.withC { s.c with total := 0, n := narrow s.params.wblk } { s.acceptedPort with phase := .run .writeTo .B1 }

section
variable (hp : s.phase = .idle) (hcfg : s.cfgState = .ready)
include hp hcfg

theorem exec_read_first {cap : Word} (h0 : 0 ≤ cap.toInt) :
    exec (.read cap) s =
      .next (s.withC { s.c with n := cap } { s.acceptedPort with phase := .run (.read cap) .K1 }) :=
  (exec_accepted_C ht rfl hp hcfg).trans (exec_A1 (s := s.withC _ _) ht rfl h0)

theorem exec_peek_first {n : Word} (h0 : 0 ≤ n.toInt) (hle : n.toInt ≤ s.size.toInt) :
    exec (.peek n) s =
      .next (s.withC { s.c with n := n } { s.acceptedPort with phase := .run (.peek n) .K1 }) :=
  (exec_accepted_C ht rfl hp hcfg).trans (exec_B1_peek (s := s.withC _ _) ht rfl h0 hle)

theorem exec_writeTo_first : exec .writeTo s = .next s.atB1 :=
  (exec_accepted_C ht rfl hp hcfg).trans (exec_T0 (s := s.withC _ _) ht rfl)

theorem exec_commit_first {n : Word} (h0 : 0 ≤ n.toInt) (hle : n.toInt ≤ s.size.toInt) :
    exec (.commit n) s =
      .next (s.withC { s.c with n := n } { s.acceptedPort with phase := .run (.commit n) .M2 }) :=
  (exec_accepted_C ht rfl hp hcfg).trans (exec_M1 (s := s.withC _ _) ht rfl h0 hle)

end
end

/-! #### What a sound state holds -/

/-- The unread length of a sound state is an `int64`, as each latch of it is. -/
theorem RingInv.toInt_length {s : State} (h : s.RingInv) : (narrow s.length).toInt = s.length := by
  obtain ⟨h0, hle, -⟩ := h
  have hmax := toInt_le_maxInt64 s.pseq.cursor
  unfold State.length
  exact toInt_narrow _ (by unfold minInt64; omega) (by omega)

/-- The cursor after a COMMIT of unread bytes: nothing is lost when it is stored (20_memory.md R69). -/
theorem RingInv.toInt_committed {s : State} (h : s.RingInv) {k : Int} (h0 : 0 ≤ k) (hk : k ≤ s.length) :
    (narrow (s.cseq.cursor.toInt + k)).toInt = s.cseq.cursor.toInt + k := by
  obtain ⟨hc0, -⟩ := h
  have hmax := toInt_le_maxInt64 s.pseq.cursor
  unfold State.length at hk
  exact toInt_narrow _ (by unfold minInt64; omega) (by omega)

/-- The number of bytes of a view is an `int64` when a count bounds it. -/
theorem toInt_narrow_length {v : List Byte} {n : Word} (h : (v.length : Int) ≤ n.toInt) :
    (narrow v.length).toInt = v.length := by
  have hmax := toInt_le_maxInt64 n
  exact toInt_narrow _ (by unfold minInt64; omega) (by omega)

section
variable {s : State} {i : Instr} {c : CLatches} {x : PortState} (h : s.SharedInv)
include h

/-- A sample of the producer cursor keeps the bound of 20_memory.md R59. -/
theorem withData_shared : (s.withData i c x).SharedInv := by
  obtain ⟨hp, hpc, -⟩ := h.floors
  obtain ⟨h0, hle, -⟩ := h.ring
  exact { h with floors := ⟨hp, hpc, h0.trans hle, le_rfl⟩ }

theorem withData_dataHeld (hlt : s.cseq.cursor.toInt < s.pseq.cursor.toInt) : (s.withData i c x).DataHeld :=
  ⟨⟨rfl, hlt, le_rfl⟩, RingInv.toInt_length h.ring⟩

end

/-! #### READ -/

/-- A3 and A4 of a READ that holds data (R108). -/
theorem read_with_data {s : State} {cap : Word} (ht : s.turn = .C) (hp : s.cPort.phase = .run (.read cap) .A3)
    (h : s.SharedInv) (hn : 0 ≤ s.c.n.toInt) (hd : s.DataHeld) :
    ∃ v, (v.length : Int) = min (min s.c.n.toInt s.c.avail.toInt) (s.size.toInt - s.idx s.c.cpos) ∧
      s.Holds s.c.cpos.toInt v ∧
      s.OverWithin (.read cap) 2
        ((s.storeCseq (narrow (s.c.cpos.toInt + v.length))).withC (s.copied v).c
          (s.cPort.answered ⟨.ok, narrow v.length, 0, v⟩)) := by
  obtain ⟨v, hlen, hh, hA3⟩ := exec_A3 ht hp h hn hd
  have hA4 := exec_A4
    (s := (s.copied v).withC (s.copied v).c { s.cPort with phase := .run (.read cap) .A4 }) ht rfl
  have hsum : s.c.cpos.toInt + v.length = s.c.cpos.toInt + (narrow v.length).toInt := by
    rw [toInt_narrow_length (n := s.c.n) (by omega)]
  refine ⟨v, hlen, hh, ?_⟩
  rw [hsum]
  exact (overWithin_last_C hA4 ht rfl).step_C hA3 ht rfl

/-- Settles O32: acceptance, the wait with data (`wait_with_data`), A3 and A4 (`read_with_data`). -/
theorem readRuns : Obligations.ReadRuns := by
  intro cap s m hinv hcfg hlag ht hp h0 hlt hm
  have h := (hinv.ready hcfg).shared hinv.params
  obtain ⟨v, hlen, hholds, hover⟩ := read_with_data
    (s := s.withData (.read cap) { s.c with n := cap } s.acceptedPort) ht rfl (withData_shared h) h0
    (withData_dataHeld h hlt)
  have hv : (v.length : Int) = m := by
    rw [hm, ← RingInv.toInt_length h.ring]
    exact hlen
  have hends : s.EndsAlone (.read cap) 6 ⟨.ok, narrow v.length, 0, v⟩
      (s.storeCseq (narrow (s.cseq.cursor.toInt + v.length))) :=
    ⟨_, _, (wait_with_data ht hlag rfl hlt hover).step_C (exec_read_first ht hp hcfg h0) ht rfl,
      acceptedPort_responses_C ht⟩
  obtain ⟨c, x, hrun, hidle, hresp⟩ := hends.run ht
  rw [hv] at hrun hidle hresp
  have hpos : 0 < s.length := sub_pos.2 hlt
  have hstart : s.idx s.cseq.cursor < s.size.toInt := by
    obtain ⟨hsize, -, -, -, hidx, -⟩ := SizeInv.facts h.size
    have hlast := hidx s.cseq.cursor
    omega
  exact ⟨by omega, _, v, hrun, hidle, hv, hholds, hresp, RingInv.toInt_committed h.ring (by omega) (by omega), rfl, rfl,
    rfl, rfl, rfl, rfl⟩

/-! #### COMMIT -/

section
variable {s : State} {n : Word} (ht : s.turn = .C) (hp : s.phase = .idle) (hcfg : s.cfgState = .ready)
  (hlag : s.params.sampleLag = .none) (h0 : 0 ≤ n.toInt) (hle : n.toInt ≤ s.size.toInt)
include ht hp hcfg hlag h0 hle

/-- COMMIT of at most the unread bytes ends at M3 (R112). -/
theorem commit_enough (hn : n.toInt ≤ s.length) :
    s.EndsAlone (.commit n) 3 ⟨.ok, n, 0, []⟩ (s.storeCseq (narrow (s.cseq.cursor.toInt + n.toInt))) := by
  have hM2 := exec_M2_enough
    (s := s.withC { s.c with n := n } { s.acceptedPort with phase := .run (.commit n) .M2 }) ht rfl
    (sample_eq_pseq ht hlag) hn
  have hM3 := exec_M3
    (s := s.withC { s.c with n := n, cpos := s.cseq.cursor, ppos := s.pseq.cursor }
      { s.acceptedPort with phase := .run (.commit n) .M3, floor := s.pseq.cursor }) ht rfl
  exact ⟨_, _, ((overWithin_last_C hM3 ht rfl).step_C hM2 ht rfl).step_C
    (exec_commit_first ht hp hcfg h0 hle) ht rfl, acceptedPort_responses_C ht⟩

/-- COMMIT of more than the unread bytes ends at M2 (R112). -/
theorem commit_short (hn : s.length < n.toInt) : s.EndsAlone (.commit n) 3 ⟨.insuf, 0, 0, []⟩ s := by
  have hM2 := exec_M2_short
    (s := s.withC { s.c with n := n } { s.acceptedPort with phase := .run (.commit n) .M2 }) ht rfl
    (sample_eq_pseq ht hlag) hn
  exact ⟨_, { s.acceptedPort with floor := s.pseq.cursor }, ((overWithin_last_C hM2 ht rfl).step_C
    (exec_commit_first ht hp hcfg h0 hle) ht rfl).mono, acceptedPort_responses_C ht⟩

end

/-- Agent C's own part is no register and no byte. -/
theorem State.SameRegisters.withC {s u : State} (h : s.SameRegisters u) (c : CLatches) (x : PortState) :
    s.SameRegisters (u.withC c x) :=
  { h with }

/-- Settles O34: the two ends of a COMMIT, at M3 (`commit_enough`) and at M2 (`commit_short`). -/
theorem commitRuns : Obligations.CommitRuns := by
  intro n s hinv hcfg hlag ht hp h0 hle
  by_cases hn : n.toInt ≤ s.length
  · obtain ⟨c, x, hrun, hidle, hresp⟩ := (commit_enough ht hp hcfg hlag h0 hle hn).run ht
    exact ⟨_, hrun, hidle, (State.SameRegisters.refl _).withC c x,
      fun _ => ⟨hresp, RingInv.toInt_committed (hinv.ready hcfg).ring h0 hn⟩, fun hs => absurd hs hn.not_gt⟩
  · obtain ⟨c, x, hrun, hidle, hresp⟩ := (commit_short ht hp hcfg hlag h0 hle (not_le.1 hn)).run ht
    exact ⟨_, hrun, hidle, (State.SameRegisters.refl _).withC c x, fun hs => absurd hs hn, fun _ => ⟨hresp, rfl⟩⟩

/-! #### PEEK -/

/-- B3 of a PEEK that holds data (R110). -/
theorem peek_with_data {s : State} {n : Word} (ht : s.turn = .C) (hp : s.cPort.phase = .run (.peek n) .B3)
    (h : s.SharedInv) (hn : 0 ≤ s.c.n.toInt) (hd : s.DataHeld) :
    ∃ v aux tmp, s.View v aux tmp ∧
      s.OverWithin (.peek n) 1
        ((s.setTmp tmp).withC (s.viewed v tmp).c
          (s.cPort.answered ⟨peekStatus v.length s.c.n.toInt, narrow v.length, aux, v⟩)) := by
  obtain ⟨v, aux, tmp, hview, hB3⟩ := peekStep_B3_view h hn hd
  have hstep := (exec_middle_C ht rfl hp).trans (hB3 respond)
  rw [respond_eq_withC (s := s.viewed v tmp) ht] at hstep
  exact ⟨v, aux, tmp, hview, overWithin_last_C hstep ht rfl⟩

/-- PEEK with data present shows the unread bytes up to its count (R110). -/
theorem peek_run {s : State} {n : Word} (h : s.SharedInv) (hcfg : s.cfgState = .ready)
    (hlag : s.params.sampleLag = .none) (ht : s.turn = .C) (hp : s.phase = .idle) (h0 : 0 ≤ n.toInt)
    (hle : n.toInt ≤ s.size.toInt) (hlt : s.cseq.cursor.toInt < s.pseq.cursor.toInt) :
    ∃ v aux tmp, (v.length : Int) = min n.toInt s.length ∧ s.Holds s.cseq.cursor.toInt v ∧
      s.EndsAlone (.peek n) 5 ⟨peekStatus v.length n.toInt, narrow v.length, aux, v⟩ (s.setTmp tmp) := by
  obtain ⟨v, aux, tmp, hview, hover⟩ := peek_with_data
    (s := s.withData (.peek n) { s.c with n := n } s.acceptedPort) ht rfl (withData_shared h) h0
    (withData_dataHeld h hlt)
  have hlen : (v.length : Int) = min n.toInt s.length := by
    rw [← RingInv.toInt_length h.ring]
    exact hview.length
  exact ⟨v, aux, tmp, hlen, hview.holds, _, _,
    (wait_with_data ht hlag rfl hlt hover).step_C (exec_peek_first ht hp hcfg h0 hle) ht rfl,
    acceptedPort_responses_C ht⟩

/-- Settles O35: PEEK shows at most the unread bytes (`peek_run`), so a COMMIT of their number ends at M3
(`commit_enough`). -/
theorem peekThenCommitRuns : Obligations.PeekThenCommitRuns := by
  intro n s hinv hcfg hlag ht hp h0 hle hlt
  have h := (hinv.ready hcfg).shared hinv.params
  obtain ⟨v, aux, tmp, hlen, hholds, hends⟩ := peek_run h hcfg hlag ht hp h0 hle hlt
  obtain ⟨c, x, hpeek, hidle, hresp⟩ := hends.run ht
  have hpos : 0 ≤ s.length := sub_nonneg.2 hlt.le
  have hv : (narrow v.length).toInt = v.length := toInt_narrow_length (n := n) (by omega)
  have hstatus : peekStatus v.length n.toInt = if n.toInt ≤ s.length then .ok else .insuf := by
    rw [hlen]
    exact if_congr min_eq_left_iff rfl rfl
  have hfits : (narrow v.length).toInt ≤ s.size.toInt := by omega
  have hthere : (narrow v.length).toInt ≤ s.length := by omega
  obtain ⟨c', x', hcommit, hidle', hresp'⟩ := (commit_enough (s := (s.setTmp tmp).withC c x) ht hidle hcfg hlag
    (by omega) hfits hthere).run ht
  have hcursor := RingInv.toInt_committed h.ring (by omega) hthere
  exact ⟨_, v, _, aux, _, hpeek, hidle, hlen, hholds, hresp, hstatus, rfl, rfl, hcommit, hidle', hresp',
    hcursor.trans (by rw [hv])⟩

/-! #### A closed and empty ring -/

/-- READ, PEEK and WRITETO come to their wait in at most two steps, WRITETO with its running total at 0 (R108, R110;
42_macro_commands.md R120). -/
theorem reader_comes_to_K1 {s : State} {i : Instr} (h : s.SharedInv) (hcfg : s.cfgState = .ready) (ht : s.turn = .C)
    (hp : s.phase = .idle)
    (hi : (∃ cap, i = .read cap ∧ 0 ≤ cap.toInt) ∨ (∃ n, i = .peek n ∧ 0 ≤ n.toInt ∧ n.toInt ≤ s.size.toInt) ∨
      i = .writeTo) :
    ∃ c, ∃ x : PortState, (i = .writeTo → c.total = 0) ∧ x.responses = s.cPort.responses ∧
      ∀ m t, (s.withC c { x with phase := .run i .K1 }).OverWithin i m t → s.OverWithin i (m + 2) t := by
  have hresp := acceptedPort_responses_C ht
  rcases hi with ⟨cap, rfl, h0⟩ | ⟨n, rfl, h0, hle⟩ | rfl
  · exact ⟨_, _, nofun, hresp, fun m t hend =>
      (hend.step_C (exec_read_first ht hp hcfg h0) ht rfl).mono⟩
  · exact ⟨_, _, nofun, hresp, fun m t hend =>
      (hend.step_C (exec_peek_first ht hp hcfg h0 hle) ht rfl).mono⟩
  · obtain ⟨-, -, hw, -⟩ := Params.ok_facts h.params
    obtain ⟨hsize, -, hmax, hrblk, -⟩ := SizeInv.facts h.size
    have hn : (narrow s.params.wblk).toInt = s.params.wblk :=
      toInt_narrow _ (by unfold minInt64; omega) (by unfold maxInt64; omega)
    have hle : (narrow s.params.wblk).toInt ≤ s.size.toInt := by omega
    have hB1 := exec_B1_writeTo (s := s.atB1) ht rfl (hn.symm ▸ Int.natCast_nonneg _) hle
    exact ⟨s.atB1.c, s.atB1.acceptedPort, fun _ => rfl, (acceptedPort_responses_C (s := s.atB1) ht).trans hresp,
      fun m t hend => (hend.step_C hB1 ht rfl).step_C (exec_writeTo_first ht hp hcfg) ht rfl⟩

/-- Settles O33: the steps up to the wait (`reader_comes_to_K1`), which ends after one sample
(`wait_on_closed_empty`). -/
theorem readersEndOnClosedEmptyRing : Obligations.ReadersEndOnClosedEmptyRing := by
  intro i s hinv hcfg hlag ht hp hi hempty hd
  obtain ⟨c, x, htotal, hx, hK1⟩ := reader_comes_to_K1 ((hinv.ready hcfg).shared hinv.params) hcfg ht hp hi
  have hwait : hasWait .C i = true := by rcases hi with ⟨cap, rfl, -⟩ | ⟨n, rfl, -⟩ | rfl <;> rfl
  have hzero : (if i = .writeTo then c.total else 0) = 0 := by
    split
    · next hw => exact htotal hw
    · rfl
  have hend := wait_on_closed_empty (c := c) (x := x) ht hlag hwait hempty hd
  rw [hzero] at hend
  have hends : s.EndsAlone i 5 ⟨.eos, 0, 0, []⟩ s.bumpCwait := ⟨_, _, hK1 3 _ hend, hx⟩
  obtain ⟨c', x', hrun, hidle, hresp⟩ := hends.run ht
  exact ⟨_, hrun, hidle, hresp, rfl, (State.SameRegisters.refl s.bumpCwait).withC c' x'⟩

end Sys2Proof.Machine
end

section
/-! PROOFS, family 42_macro_commands.md. The steps of READFROM, READFROMB and WRITETO around the source and the sink
with their exact next states, and these commands run alone. -/

namespace Sys2Proof.Machine

/-! ### The source's answer and its end (42_macro_commands.md R116, R118, R119) -/

/-- The status with which a streaming command reports the end or the error of its source. -/
def ReportedAs (e : SrcErr) (st : Status) : Prop := (e = .eos ∧ st = .eos) ∨ ∃ x, e = .ext x ∧ st = .ext x

/-- Agent P's latches with the source's answer `a`, which is taken from the answers to come. -/
def State.answeredBy (s : State) (a : SrcAnswer) (rest : List SrcAnswer) : State :=
  (s.setEnv { s.env with source := rest }).setP { s.p with n := narrow a.data.length, data := a.data, err := a.err }

section
variable {s : State} {i : Instr} {l : Label} (ht : s.turn = .P)
include ht

theorem exec_source_answers {next : Label} {mx : Int} {a : SrcAnswer} {rest : List SrcAnswer}
    (hi : (i = .readFrom ∧ l = .F2 ∧ next = .U1 ∧ mx = s.rsv.len.toInt) ∨
      (i = .readFromB ∧ l = .E1 ∧ next = .W1 ∧ mx = s.params.rblk))
    (hp : s.phase = .run i l) (hsrc : s.env.source = a :: rest) (hfits : a.fits mx = true) :
    exec i s = .next ((s.answeredBy a rest).setPort .P { s.pPort with phase := .run i next }) := by
  have hcall : exec i s = srcRead mx next s := by
    rcases hi with ⟨rfl, rfl, rfl, rfl⟩ | ⟨rfl, rfl, rfl, rfl⟩
    · exact exec_middle hp (by rw [ht]; rfl)
    · exact exec_middle hp (by rw [ht]; rfl)
  refine hcall.trans (Eq.trans ?_ (goto_eq_setPort (s := s.answeredBy a rest) ht ((pPort_phase ht).trans hp) next))
  simp [srcRead, hsrc, hfits, State.answeredBy]

/-- F4 and E3 look at the source's end indication. -/
theorem exec_sourceEnd {again : Label}
    (hi : (i = .readFrom ∧ l = .F4 ∧ again = .V1) ∨ (i = .readFromB ∧ l = .E3 ∧ again = .E1))
    (hp : s.phase = .run i l) : exec i s = sourceEnd again s := by
  rcases hi with ⟨rfl, rfl, rfl⟩ | ⟨rfl, rfl, rfl⟩
  · exact exec_middle hp (by rw [ht]; rfl)
  · exact exec_middle hp (by rw [ht]; rfl)

theorem sourceEnd_again (hp : s.phase = .run i l) (he : s.p.err = .none) (again : Label) :
    sourceEnd again s = .next (s.setPort .P { s.pPort with phase := .run i again }) := by
  rw [← goto_eq_setPort ht ((pPort_phase ht).trans hp)]
  simp [sourceEnd, he]

/-- F4 and E3 of a source that has ended: its end or its own code is answered with the running total. -/
theorem sourceEnd_reports {st : Status} (he : ReportedAs s.p.err st) (again : Label) :
    sourceEnd again s = .next (s.setPort .P (s.pPort.answered ⟨st, s.p.total, 0, []⟩)) := by
  rw [← respond_eq_setPort ht]
  rcases he with ⟨he, rfl⟩ | ⟨x, he, rfl⟩
  · simp [sourceEnd, he]
  · simp [sourceEnd, he]

end

/-- Settles O25: the answer is latched (`exec_source_answers`), and its end indication looked at (`exec_sourceEnd`). -/
theorem sourceAnswerSteps : Obligations.SourceAnswerSteps := by
  refine ⟨fun i l next mx a rest s ht hi hp hsrc hfits => exec_source_answers ht hi hp hsrc hfits,
    fun i l again s ht hi hp => ?_⟩
  rw [exec_sourceEnd ht hi hp]
  exact ⟨fun he => sourceEnd_again ht hp he again, fun he => sourceEnd_reports ht (.inl ⟨he, rfl⟩) again,
    fun x he => sourceEnd_reports ht (.inr ⟨x, he, rfl⟩) again⟩

/-! ### READFROM and READFROMB run alone -/

/-- `s` with agent P's own part replaced, its latches and its port, and with the source's answers still to come. -/
def State.withP (s : State) (src : List SrcAnswer) (p : PLatches) (x : PortState) : State :=
  { s with env := { s.env with source := src }, p := p, pPort := x }

section
variable {s : State} {src : List SrcAnswer} {p : PLatches} {x : PortState}

theorem withP_setP (p' : PLatches) : (s.withP src p x).setP p' = s.withP src p' x := rfl

theorem withP_setPort (x' : PortState) : (s.withP src p x).setPort .P x' = s.withP src p x' := rfl

theorem withP_answeredBy (a : SrcAnswer) (rest : List SrcAnswer) :
    (s.withP src p x).answeredBy a rest =
      s.withP rest { p with n := narrow a.data.length, data := a.data, err := a.err } x := rfl

theorem withP_phase (ht : s.turn = .P) : (s.withP src p x).phase = x.phase :=
  (pPort_phase (s := s.withP src p x) ht).symm

end

/-- Command `i` run alone from `s` comes to `u` in at most `m` steps, with its end still ahead. -/
def State.ComesTo (s : State) (i : Instr) (m : Nat) (u : State) : Prop :=
  ∀ k t, u.OverWithin i k t → s.OverWithin i (k + m) t

section
variable {s u v : State} {i : Instr} {l : Label} {m n : Nat}

theorem comesTo_of_exec (hx : exec i s = .next u) (hp : u.phase = .run i l) : s.ComesTo i 1 u :=
  fun _ _ h => h.step hx hp

theorem State.ComesTo.trans (h : s.ComesTo i m u) (h' : u.ComesTo i n v) : s.ComesTo i (n + m) v := fun k t hv => by
  rw [← Nat.add_assoc]
  exact h _ t (h' k t hv)

end

/-- What a READFROM or READFROMB whose source has ended makes of the state `s`: the `n` bytes stored in `m` are
published from the producer cursor on, then `st` is answered with the running total (R118, R119). -/
structure State.Published (s : State) (n : Word) (m : Memory) (src : List SrcAnswer) (st : Status) (t : State) :
    Prop where
  phase : t.phase = .idle
  responses : t.pPort.responses = s.pPort.responses ++ [⟨st, narrow (s.p.total.toInt + n.toInt), 0, []⟩]
  cursor : t.pseq.cursor = narrow (s.pseq.cursor.toInt + n.toInt)
  buf : t.buf = m
  mask : t.mask = s.mask
  source : t.env.source = src
  cseq : t.cseq = s.cseq
  tmp : t.tmp = s.tmp
  done : t.done = s.done

/-- The answer keeps its contract: no more bytes than were asked for (R116). -/
theorem SrcAnswer.fits_length {a : SrcAnswer} {mx : Int} (h : a.fits mx = true) : (a.data.length : Int) ≤ mx := by
  simp only [SrcAnswer.fits, Bool.and_eq_true, decide_eq_true_eq] at h
  exact h.1

/-- What is published lies at the positions from the old cursor on, and its number is answered (20_memory.md R69). -/
theorem State.Published.facts {s t : State} {d : List Byte} {m : Memory} {src : List SrcAnswer} {st : Status}
    (h : s.Published (narrow d.length) m src st t) (hsize : s.SizeInv) (h0 : 0 ≤ s.pseq.cursor.toInt)
    (hlen : (d.length : Int) ≤ s.size.toInt) (hmax : s.pseq.cursor.toInt + d.length ≤ maxInt64)
    (hm : ringCopy s.buf s.sizeNat (s.idx s.pseq.cursor) d = .ok m) (htotal : s.p.total = 0) :
    t.pPort.responses = s.pPort.responses ++ [⟨st, narrow d.length, 0, []⟩] ∧
      t.pseq.cursor.toInt = s.pseq.cursor.toInt + d.length ∧ t.Holds s.pseq.cursor.toInt d := by
  have hn : (narrow d.length).toInt = d.length := toInt_narrow_length hlen
  refine ⟨?_, ?_, ((ringCopy_at hsize h0 hlen hmax hm).1).of_same_buf h.buf h.mask⟩
  · rw [h.responses, htotal, hn]
    simp
  · rw [h.cursor, hn]
    exact toInt_narrow _ (by unfold minInt64; omega) hmax

/-- The gate a claim leaves behind covers the claim (40_producer_commands.md R98). -/
theorem gateAfter_covers {s : State} (hroom : s.p.n.toInt ≤ s.freeRegion) :
    s.pseq.cursor.toInt + s.p.n.toInt - s.size.toInt ≤ s.gateAfter.toInt := by
  unfold State.freeRegion State.length at hroom
  unfold State.gateAfter
  split <;> omega

section
variable {s : State} {i : Instr} {l : Label} (ht : s.turn = .P)
include ht

theorem acceptedPort_responses_P : s.acceptedPort.responses = s.pPort.responses := by
  rw [acceptedPort_responses, ht, port_P]

/-- A command whose source has ended is over in one step at the end of its iteration (R118 F4, R119 E3). -/
theorem source_ended {again : Label} {st : Status}
    (hi : (i = .readFrom ∧ l = .F4 ∧ again = .V1) ∨ (i = .readFromB ∧ l = .E3 ∧ again = .E1))
    (hp : s.phase = .run i l) (hst : ReportedAs s.p.err st) :
    s.OverWithin i 1 (s.setPort .P (s.pPort.answered ⟨st, s.p.total, 0, []⟩)) :=
  overWithin_last ((exec_sourceEnd ht hi hp).trans (sourceEnd_reports ht hst again)) (setPort_P_phase ht _)

end

/-! #### READFROM -/

section
variable {s : State} {a : SrcAnswer} {rest : List SrcAnswer} {st : Status} (ht : s.turn = .P)
include ht

/-- U1 of a READFROM stores a payload that fits the reservation (40_producer_commands.md R95). -/
theorem exec_U1_readFrom (hp : s.phase = .run .readFrom .U1) (hsize : s.SizeInv) (hrsv : s.RsvInv) (h : s.Publishing) :
    exec .readFrom s =
      .next
        ((s.setBuf (s.buf.write (s.idx s.pseq.cursor) s.p.data)).setPort .P
          { s.acceptedPort with phase := .run .readFrom .U2 }) := by
  have hstep : exec .readFrom s = publStep readFromAfterPubl .U1 s.raiseFloor := exec_middle hp (by rw [ht]; rfl)
  rw [hstep, raiseFloor_eq_setPort ht,
    publStep_U1_eq (s := s.setPort .P s.acceptedPort) (ret := readFromAfterPubl) hsize hrsv h, ← (hrsv h.1).1]
  exact goto_eq_setPort
    (s := (s.setPort .P s.acceptedPort).setBuf (s.buf.write (s.idx s.rsv.pos) s.p.data)) ht hp .U2

/-- U2 and F4 of a READFROM whose source has ended (R118). -/
theorem readFrom_ends (hp : s.phase = .run .readFrom .U2) (hpos : s.rsv.pos = s.pseq.cursor)
    (hst : ReportedAs s.p.err st) :
    ∃ t, s.OverWithin .readFrom 2 t ∧ s.Published s.p.n s.buf s.env.source st t ∧ t.rsv.valid = false := by
  have ht4 : (addTotalP s.p.n s.publishedRsv).turn = .P := ht
  have hF4 := source_ended
    (s := (addTotalP s.p.n s.publishedRsv).setPort .P { s.pPort with phase := .run .readFrom .F4 })
    ht (.inl ⟨rfl, rfl, rfl⟩) (setPort_P_phase ht4 _) hst
  refine ⟨_, hF4.step (exec_U2_readFrom ht hp) (setPort_P_phase ht4 _), ?_, rfl⟩
  exact
    { phase := setPort_P_phase ht _
      responses := rfl
      cursor := congrArg (fun w : Word => narrow (w.toInt + s.p.n.toInt)) hpos
      buf := rfl
      mask := rfl
      source := rfl
      cseq := rfl
      tmp := rfl
      done := rfl }

/-- U1 to F4 of a READFROM whose source has ended, with a payload that fits the reservation (R118). -/
theorem readFrom_stores (hp : s.phase = .run .readFrom .U1) (hsize : s.SizeInv) (hrsv : s.RsvInv) (h : s.Publishing)
    (hst : ReportedAs s.p.err st) :
    ∃ t, s.OverWithin .readFrom 3 t ∧
      s.Published s.p.n (s.buf.write (s.idx s.pseq.cursor) s.p.data) s.env.source st t ∧ t.rsv.valid = false := by
  have ht2 : (s.setBuf (s.buf.write (s.idx s.pseq.cursor) s.p.data)).turn = .P := ht
  have hU2 := setPort_P_phase ht2 { s.acceptedPort with phase := .run .readFrom .U2 }
  obtain ⟨t, hover, hpub, hv⟩ := readFrom_ends
    (s := (s.setBuf (s.buf.write (s.idx s.pseq.cursor) s.p.data)).setPort .P
      { s.acceptedPort with phase := .run .readFrom .U2 }) ht hU2 (hrsv h.1).1 hst
  refine ⟨t, hover.step (exec_U1_readFrom ht hp hsize hrsv h) hU2, { hpub with responses := ?_ }, hv⟩
  exact hpub.responses.trans (congrArg (· ++ _) (acceptedPort_responses_P ht))

/-- F2 to F4 of a READFROM that holds a reservation (R118). -/
theorem readFrom_reserved (hp : s.phase = .run .readFrom .F2) (hsize : s.SizeInv) (hrsv : s.RsvInv)
    (hv : s.rsv.valid = true) (hsrc : s.env.source = a :: rest) (hfits : a.fits s.rsv.len.toInt = true)
    (hst : ReportedAs a.err st) :
    ∃ t, s.OverWithin .readFrom 4 t ∧
      s.Published (narrow a.data.length) (s.buf.write (s.idx s.pseq.cursor) a.data) rest st t ∧
      t.rsv.valid = false := by
  have hlen := SrcAnswer.fits_length hfits
  have hn := toInt_narrow_length hlen
  have ht1 : (s.answeredBy a rest).turn = .P := ht
  have hU1 := setPort_P_phase ht1 { s.pPort with phase := .run .readFrom .U1 }
  obtain ⟨t, hover, hpub, hended⟩ := readFrom_stores
    (s := (s.answeredBy a rest).setPort .P { s.pPort with phase := .run .readFrom .U1 }) ht hU1 hsize hrsv
    ⟨hv, hn.symm, hn.trans_le hlen⟩ hst
  exact ⟨t, hover.step (exec_source_answers ht (.inl ⟨rfl, rfl, rfl, rfl⟩) hp hsrc hfits) hU1, { hpub with }, hended⟩

/-- The state in which a READFROM that was accepted starts its inner RSVE (R118). -/
def State.readFromAtV1 (s : State) : State :=
  s.withP s.env.source { s.p with total := 0 } { s.acceptedPort with phase := .run .readFrom .V1 }

theorem exec_readFrom_first (hp : s.phase = .idle) (hcfg : s.cfgState = .ready) (hv : s.rsv.valid = false) :
    exec .readFrom s = .next s.readFromAtV1 :=
  (exec_first ht hp (legal_eq_true.2 ⟨hcfg, rfl, by simp [admitted, hv]⟩) rfl).trans
    (goto_setPort (s := s.setP { s.p with total := 0 }) (x := s.acceptedPort) ht .V1)

/-- F0 and V1: a READFROM that is accepted comes to the gate of its inner RSVE (R118). -/
theorem readFrom_comes_to_G1 (hp : s.phase = .idle) (hcfg : s.cfgState = .ready) (hv : s.rsv.valid = false) :
    ∃ x : PortState, x.responses = s.pPort.responses ∧ s.ComesTo .readFrom 2
      (s.withP s.env.source
        { s.p with total := 0, ppos := s.pseq.cursor, n := narrow (reserveLen s s.pseq.cursor) }
        { x with phase := .run .readFrom .G1 }) := by
  have hV1 := exec_V1_readFrom (s := s.readFromAtV1) ht (withP_phase ht)
  rw [State.readFromAtV1, withP_setP, withP_setPort, ← State.readFromAtV1] at hV1
  have hx := (acceptedPort_responses_P (s := s.readFromAtV1) ht).trans (acceptedPort_responses_P ht)
  exact ⟨_, hx, (comesTo_of_exec (exec_readFrom_first ht hp hcfg hv) (withP_phase ht)).trans
    (comesTo_of_exec hV1 (withP_phase ht))⟩

end

/-- The gate of a READFROM with room, then V3, which reserves the run, and F2 to F4 (R118). -/
theorem readFrom_after_V1 {s : State} {a : SrcAnswer} {rest : List SrcAnswer} {st : Status} (h : s.AtG1 .readFrom)
    (hsize : s.SizeInv) (h1 : 1 ≤ s.p.n.toInt) (hblk : s.p.n.toInt ≤ s.params.rblk)
    (hidx : s.idx s.pseq.cursor + s.p.n.toInt ≤ s.size.toInt) (hroom : s.p.n.toInt ≤ s.freeRegion)
    (hsrc : s.env.source = a :: rest) (hfits : a.fits s.p.n.toInt = true) (hst : ReportedAs a.err st) :
    ∃ t, s.OverWithin .readFrom 8 t ∧
      s.Published (narrow a.data.length) (s.buf.write (s.idx s.pseq.cursor) a.data) rest st t ∧
      t.rsv.valid = false := by
  have ht := h.turn
  obtain ⟨c, f, hover⟩ := h.room hroom
  have ht3 : ((s.claimed .readFrom c f).setRsv ⟨true, s.pseq.cursor, s.p.n⟩).turn = .P := ht
  have hF2 := setPort_P_phase ht3 { (s.claimed .readFrom c f).pPort with phase := .run .readFrom .F2 }
  have hV3 := exec_V3_readFrom (s := s.claimed .readFrom c f) ht (setPort_P_phase ht _)
  obtain ⟨t, hend, hpub, hrsv⟩ := readFrom_reserved
    (s := ((s.claimed .readFrom c f).setRsv ⟨true, s.pseq.cursor, s.p.n⟩).setPort .P
      { (s.claimed .readFrom c f).pPort with phase := .run .readFrom .F2 }) ht hF2 hsize
    (fun _ => ⟨rfl, h1, hblk, hidx, gateAfter_covers hroom, h.horizon⟩) rfl hsrc hfits hst
  exact ⟨t, hover 5 t (hend.step hV3 hF2), { hpub with }, hrsv⟩

/-- Settles O36: F0 and V1, then the gate with room and what follows it (`readFrom_after_V1`). -/
theorem readFromRuns : Obligations.ReadFromRuns := by
  intro s a rest len st hinv hcfg hlag ht hp hv hlen hroom hfar hsrc hfits hst
  have hr := hinv.ready hcfg
  obtain ⟨hc0, hcp, -, -⟩ := hr.ring
  obtain ⟨hn, h1, hblk, hidx, hle⟩ := reserveLen_bounds (hr.shared hinv.params) s.pseq.cursor
  obtain ⟨x, hx, hstart⟩ := readFrom_comes_to_G1 ht hp hcfg hv
  rw [reserveLen, ← hlen] at hn h1 hblk hidx hle hstart
  have hlength := SrcAnswer.fits_length hfits
  unfold State.FarFromHorizon at hfar
  have hend : s.pseq.cursor.toInt + a.data.length ≤ maxInt64 := by omega
  have hmax : s.pseq.cursor.toInt + (narrow len).toInt + s.size.toInt ≤ maxInt64 := by omega
  have hsize := (SizeInv.facts hr.size).1
  rw [← hn] at h1 hblk hidx hroom hfits
  have hcount := zero_le_one.trans h1
  have hG1 : (s.withP s.env.source { s.p with total := 0, ppos := s.pseq.cursor, n := narrow len }
      { x with phase := .run .readFrom .G1 }).AtG1 .readFrom :=
    ⟨ht, .inr rfl, hlag, hr.ring, hr.gate, hcount, hmax, withP_phase ht⟩
  obtain ⟨t, hover, hpub, hrsv⟩ := readFrom_after_V1 hG1 hr.size h1 hblk hidx hroom hsrc hfits hst
  have hm := ringCopy_contiguous s.buf s.sizeNat (s.idx s.pseq.cursor) a.data (by omega)
  obtain ⟨hresp, hcursor, hholds⟩ := hpub.facts hr.size (hc0.trans hcp) (hlength.trans hle) hend hm rfl
  exact ⟨t, hstart _ _ hover 0, hpub.phase, hresp.trans (congrArg (· ++ _) hx), hcursor, hrsv, hholds, hpub.source,
    hpub.cseq, hpub.tmp, hpub.done⟩

/-! #### READFROMB -/

/-- W4 and E3 of a READFROMB whose source has ended (R119). -/
theorem readFromB_ends {s : State} {st : Status} (ht : s.turn = .P) (hp : s.phase = .run .readFromB .W4)
    (hnext : s.p.next = narrow (s.pseq.cursor.toInt + s.p.n.toInt)) (hst : ReportedAs s.p.err st) :
    ∃ t, s.OverWithin .readFromB 2 t ∧ s.Published s.p.n s.buf s.env.source st t ∧ t.rsv = s.rsv := by
  have ht4 : (addTotalP s.p.n (s.storePseq s.p.next)).turn = .P := ht
  have hE3 := source_ended
    (s := (addTotalP s.p.n (s.storePseq s.p.next)).setPort .P { s.pPort with phase := .run .readFromB .E3 })
    ht (.inr ⟨rfl, rfl, rfl⟩) (setPort_P_phase ht4 _) hst
  refine ⟨_, hE3.step (exec_W4_readFromB ht hp) (setPort_P_phase ht4 _), ?_, rfl⟩
  exact
    { phase := setPort_P_phase ht _
      responses := rfl
      cursor := hnext
      buf := rfl
      mask := rfl
      source := rfl
      cseq := rfl
      tmp := rfl
      done := rfl }

/-- The gate of a READFROMB with room for the chunk it has been given, then W3, W4 and E3 (R119). -/
theorem readFromB_after_W1 {s : State} {m : Memory} {st : Status} (h : s.AtG1 .readFromB)
    (hroom : s.p.n.toInt ≤ s.freeRegion) (hm : ringCopy s.buf s.sizeNat (s.idx s.pseq.cursor) s.p.data = .ok m)
    (hst : ReportedAs s.p.err st) :
    ∃ t, s.OverWithin .readFromB 6 t ∧ s.Published s.p.n m s.env.source st t ∧ t.rsv = s.rsv := by
  have ht := h.turn
  obtain ⟨c, f, hover⟩ := h.room hroom
  have ht3 : ((s.claimed .readFromB c f).setBuf m).turn = .P := ht
  have hW4 := setPort_P_phase ht3 { (s.claimed .readFromB c f).pPort with phase := .run .readFromB .W4 }
  have hW3 := exec_W3 (s := s.claimed .readFromB c f) (m := m) ht rfl (setPort_P_phase ht _) hm
  obtain ⟨t, hend, hpub, hrsv⟩ := readFromB_ends
    (s := ((s.claimed .readFromB c f).setBuf m).setPort .P
      { (s.claimed .readFromB c f).pPort with phase := .run .readFromB .W4 }) ht hW4 rfl hst
  exact ⟨t, hover 3 t (hend.step hW3 hW4), { hpub with }, hrsv⟩

section
variable {s : State} {a : SrcAnswer} {rest : List SrcAnswer} (ht : s.turn = .P)
include ht

/-- The state in which a READFROMB that was accepted calls its source (R119). -/
def State.readFromBAtE1 (s : State) : State :=
  s.withP s.env.source { s.p with total := 0 } { s.acceptedPort with phase := .run .readFromB .E1 }

/-- The state in which a READFROMB has been given its first chunk (R119). -/
def State.readFromBGiven (s : State) (a : SrcAnswer) (rest : List SrcAnswer) (x : PortState) : State :=
  s.withP rest { s.p with total := 0, n := narrow a.data.length, data := a.data, err := a.err } x

theorem exec_readFromB_first (hp : s.phase = .idle) (hcfg : s.cfgState = .ready) (hv : s.rsv.valid = false) :
    exec .readFromB s = .next s.readFromBAtE1 :=
  (exec_first ht hp (legal_eq_true.2 ⟨hcfg, rfl, by simp [admitted, hv]⟩) rfl).trans
    (goto_setPort (s := s.setP { s.p with total := 0 }) (x := s.acceptedPort) ht .E1)

/-- E0, E1 and W1: a READFROMB that is accepted and is given a chunk comes to the gate of its inner WRITE (R119). -/
theorem readFromB_comes_to_G1 (hp : s.phase = .idle) (hcfg : s.cfgState = .ready) (hv : s.rsv.valid = false)
    (hsrc : s.env.source = a :: rest) (hfits : a.fits s.params.rblk = true)
    (hle : (a.data.length : Int) ≤ s.size.toInt) :
    ∃ x : PortState, x.responses = s.pPort.responses ∧ s.ComesTo .readFromB 3
      (s.readFromBGiven a rest { x with phase := .run .readFromB .G1 }) := by
  have hn := toInt_narrow_length hle
  have hE1 := exec_source_answers (s := s.readFromBAtE1) ht (.inr ⟨rfl, rfl, rfl, rfl⟩) (withP_phase ht) hsrc hfits
  rw [State.readFromBAtE1, withP_answeredBy, withP_setPort, ← State.readFromBAtE1] at hE1
  have hW1 := exec_W1_readFromB
    (s := s.readFromBGiven a rest { s.acceptedPort with phase := .run .readFromB .W1 }) ht (withP_phase ht)
    (hn.symm ▸ Int.natCast_nonneg _) (hn.trans_le hle)
  rw [State.readFromBGiven, withP_setPort, ← State.readFromBGiven] at hW1
  have hx := (acceptedPort_responses_P
    (s := s.readFromBGiven a rest { s.acceptedPort with phase := .run .readFromB .W1 }) ht).trans
    (acceptedPort_responses_P ht)
  exact ⟨_, hx, (comesTo_of_exec (exec_readFromB_first ht hp hcfg hv) (withP_phase ht)).trans
    ((comesTo_of_exec hE1 (withP_phase ht)).trans (comesTo_of_exec hW1 (withP_phase ht)))⟩

end

/-- Settles O37: E0, E1 and W1, then the gate with room and what follows it (`readFromB_after_W1`). -/
theorem readFromBRuns : Obligations.ReadFromBRuns := by
  intro s a rest st hinv hcfg hlag ht hp hv hroom hfar hsrc hfits hst
  have hr := hinv.ready hcfg
  obtain ⟨hc0, hcp, hps, -⟩ := hr.ring
  obtain ⟨hsize, -, -, hrblk, hidx, -⟩ := SizeInv.facts hr.size
  have hlength := SrcAnswer.fits_length hfits
  have hle : (a.data.length : Int) ≤ s.size.toInt := by omega
  have hn := toInt_narrow_length hle
  unfold State.FarFromHorizon at hfar
  obtain ⟨x, hx, hstart⟩ := readFromB_comes_to_G1 ht hp hcfg hv hsrc hfits hle
  obtain ⟨m, hm⟩ := ringCopy_total s.buf s.sizeNat (s.idx s.pseq.cursor) a.data (hidx _) (by omega)
  have hend : s.pseq.cursor.toInt + a.data.length ≤ maxInt64 := by omega
  have hmax : s.pseq.cursor.toInt + (narrow a.data.length).toInt + s.size.toInt ≤ maxInt64 := by omega
  have hG1 : (s.readFromBGiven a rest { x with phase := .run .readFromB .G1 }).AtG1 .readFromB :=
    ⟨ht, .inl rfl, hlag, hr.ring, hr.gate, hn.symm ▸ Int.natCast_nonneg _, hmax, withP_phase ht⟩
  obtain ⟨t, hover, hpub, hrsv⟩ := readFromB_after_W1 hG1 (hn.trans_le hroom) hm hst
  obtain ⟨hresp, hcursor, hholds⟩ := hpub.facts hr.size (hc0.trans hcp) hle hend hm rfl
  exact ⟨t, hstart _ _ hover 0, hpub.phase, hresp.trans (congrArg (· ++ _) hx), hcursor, hholds, hpub.source, hpub.cseq,
    hrsv, hpub.tmp, hpub.done⟩

/-! ### The steps of WRITETO around the sink (42_macro_commands.md R117, R120) -/

/-- What the environment holds after the sink has been given agent C's view: the answers still to come and the views. -/
def State.fedEnv (s : State) (rest : List SinkAnswer) : Env :=
  { s.env with sink := rest, delivered := s.env.delivered ++ [s.c.view] }

theorem setC_setC (s : State) (c c' : CLatches) : (s.setC c).setC c' = s.setC c' := rfl

section
variable {s : State} (ht : s.turn = .C)
include ht

theorem exec_T2 {a : SinkAnswer} {rest : List SinkAnswer} (hp : s.cPort.phase = .run .writeTo .T2)
    (hsink : s.env.sink = a :: rest) (hfits : a.fits s.c.view = true) :
    exec .writeTo s =
      .next
        ((s.setEnv (s.fedEnv rest)).withC { s.c with k := narrow a.count, err := a.err }
          { s.cPort with phase := .run .writeTo .T3 }) := by
  have hgoto := goto_eq_withC
    (s := (s.setEnv (s.fedEnv rest)).setC { s.c with k := narrow a.count, err := a.err }) ht hp .T3
  refine ((exec_middle_C ht rfl hp).trans ?_).trans hgoto
  simp [stepOf, writeToStep, sinkWrite, hsink, hfits, State.fedEnv]

/-- T3 after an answer without an error hands the whole view to the inner COMMIT. -/
theorem exec_T3_taken (hp : s.cPort.phase = .run .writeTo .T3) (he : s.c.err = none) :
    exec .writeTo s = .next (s.withC { s.c with n := s.c.m } { s.cPort with phase := .run .writeTo .M1 }) := by
  refine ((exec_middle_C ht rfl hp).trans ?_).trans (goto_eq_withC (s := s.setC { s.c with n := s.c.m }) ht hp .M1)
  simp [stepOf, writeToStep, writeToAfterSink, startCommit, he]

/-- T3 after an error ends the command, where the bytes the sink took are not committed. -/
theorem exec_T3_failed {x : Byte} (hp : s.cPort.phase = .run .writeTo .T3) (he : s.c.err = some x)
    (hq : s.params.commitOnSinkError = false) :
    exec .writeTo s =
      .next
        (s.withC { s.c with total := narrow (s.c.total.toInt + s.c.k.toInt) }
          (s.cPort.answered ⟨.ext x, narrow (s.c.total.toInt + s.c.k.toInt), 0, []⟩)) := by
  refine ((exec_middle_C ht rfl hp).trans ?_).trans (respond_eq_withC (s := addTotalC s.c.k s) ht _)
  simp [stepOf, writeToStep, writeToAfterSink, he, addTotalC, hq]

/-- T3 after an error hands the bytes the sink took to the inner COMMIT under `WRITETO_COMMIT_ON_SINK_ERROR`. -/
theorem exec_T3_partial {x : Byte} (hp : s.cPort.phase = .run .writeTo .T3) (he : s.c.err = some x)
    (hq : s.params.commitOnSinkError = true) :
    exec .writeTo s =
      .next
        (s.withC { s.c with total := narrow (s.c.total.toInt + s.c.k.toInt), n := s.c.k }
          { s.cPort with phase := .run .writeTo .M1 }) := by
  have hgoto := goto_eq_withC
    (s := s.setC { s.c with total := narrow (s.c.total.toInt + s.c.k.toInt), n := s.c.k }) ht hp .M1
  refine ((exec_middle_C ht rfl hp).trans ?_).trans hgoto
  simp [stepOf, writeToStep, writeToAfterSink, startCommit, he, addTotalC, setC_setC, hq]

/-- The inner COMMIT of WRITETO starts as one that is presented there does (R123). -/
theorem exec_M1_writeTo (hp : s.cPort.phase = .run .writeTo .M1) (h0 : 0 ≤ s.c.n.toInt)
    (hle : s.c.n.toInt ≤ s.size.toInt) :
    exec .writeTo s = .next (s.withC s.c { s.acceptedPort with phase := .run .writeTo .M2 }) := by
  have hacc : s.acceptedPort.phase = .run .writeTo .M1 := (acceptedPort_phase s).trans (phase_of_cPort ht hp)
  rw [exec_middle_C ht rfl hp]
  simp only [stepOf, writeToStep, commitStep, raiseFloor_size, raiseFloor_c, argError_eq_none.2 ⟨h0, hle⟩]
  rw [raiseFloor_eq_withC ht]
  exact goto_eq_withC (s := s.withC s.c s.acceptedPort) ht hacc .M2

/-- The step M2 of the inner COMMIT when the sample `v` shows enough data (41_consumer_commands.md R112). -/
theorem exec_M2_writeTo {v : Word} (hp : s.cPort.phase = .run .writeTo .M2) (hv : s.sample = v)
    (hw : s.c.n.toInt ≤ v.toInt - s.cseq.cursor.toInt) :
    exec .writeTo s =
      .next
        (s.withC { s.c with cpos := s.cseq.cursor, ppos := v }
          { s.cPort with phase := .run .writeTo .M3, floor := v }) := by
  subst hv
  rw [exec_middle_C ht rfl hp]
  simp only [stepOf, writeToStep, commitStep, noteSample_eq_withC ht, hw, if_true]
  exact goto_eq_withC
    (s := s.withC { s.c with cpos := s.cseq.cursor, ppos := s.sample } { s.cPort with floor := s.sample }) ht hp _

/-- The step M3 without an error counts the view and starts a new PEEK of `WBLK`. -/
theorem exec_M3_again (hp : s.cPort.phase = .run .writeTo .M3) (he : s.c.err = none) :
    exec .writeTo s =
      .next
        ((s.storeCseq (narrow (s.c.cpos.toInt + s.c.n.toInt))).withC
          { s.c with total := narrow (s.c.total.toInt + s.c.m.toInt), n := narrow s.params.wblk }
          { s.cPort with phase := .run .writeTo .B1 }) := by
  have hgoto := goto_eq_withC
    (s := (s.storeCseq (narrow (s.c.cpos.toInt + s.c.n.toInt))).setC
      { s.c with total := narrow (s.c.total.toInt + s.c.m.toInt), n := narrow s.params.wblk }) ht hp .B1
  refine ((exec_middle_C ht rfl hp).trans ?_).trans hgoto
  simp [stepOf, writeToStep, commitStep, writeToAfterCommit, he, startPeek, addTotalC, setC_setC]

/-- The step M3 after an error of the sink ends the command. -/
theorem exec_M3_failed {x : Byte} (hp : s.cPort.phase = .run .writeTo .M3) (he : s.c.err = some x) :
    exec .writeTo s =
      .next
        ((s.storeCseq (narrow (s.c.cpos.toInt + s.c.n.toInt))).withC s.c
          (s.cPort.answered ⟨.ext x, s.c.total, 0, []⟩)) := by
  have hrespond := respond_eq_withC (s := s.storeCseq (narrow (s.c.cpos.toInt + s.c.n.toInt))) ht
    ⟨.ext x, s.c.total, 0, []⟩
  refine ((exec_middle_C ht rfl hp).trans ?_).trans hrespond
  simp [stepOf, writeToStep, commitStep, writeToAfterCommit, he]

end

/-- At M2 the bound raised at M1 covers the view, and no sample lies below it (20_memory.md R59; log entries 9 and
23). -/
theorem writeTo_M2_enough {s : State} (hinv : s.Inv) (hcfg : s.cfgState = .ready) (ht : s.turn = .C)
    (hp : s.phase = .run .writeTo .M2) : s.c.n.toInt ≤ s.sample.toInt - s.cseq.cursor.toInt := by
  obtain ⟨h, hop, -⟩ := hinv.at_cLabel hcfg ht hp
  obtain ⟨hfloor, -⟩ := sample_bounds h.floors
  rw [ht, port_C] at hfloor
  obtain ⟨-, hcovers⟩ | ⟨n, hi⟩ := hop
  · omega
  · cases hi

/-- Settles O26: the steps T2, T3, B1, M1, M2 and M3, one lemma each. -/
theorem sinkAnswerSteps : Obligations.SinkAnswerSteps := by
  intro s ht
  have hphase : ∀ l, s.phase = .run .writeTo l → s.cPort.phase = .run .writeTo l := fun l hp => cPort_phase ht ▸ hp
  refine ⟨fun a rest hp => exec_T2 ht (hphase _ hp), fun hp => exec_T3_taken ht (hphase _ hp),
    fun x hp => exec_T3_failed ht (hphase _ hp), fun x hp => exec_T3_partial ht (hphase _ hp), ?_,
    fun hinv hcfg hp => exec_M2_writeTo ht (hphase _ hp) rfl (writeTo_M2_enough hinv hcfg ht hp),
    fun hp => exec_M3_again ht (hphase _ hp), fun x hp => exec_M3_failed ht (hphase _ hp)⟩
  rintro l next (⟨rfl, rfl⟩ | ⟨rfl, rfl⟩) hp
  · exact exec_B1_writeTo ht (hphase _ hp)
  · exact exec_M1_writeTo ht (hphase _ hp)

/-! ### WRITETO run alone -/

/-- A number of unread bytes is an `int64` (20_memory.md R69). -/
theorem RingInv.toInt_unread {s : State} (h : s.RingInv) {k : Nat} (hk : (k : Int) ≤ s.length) :
    (narrow k).toInt = k := by
  have hmax := toInt_le_maxInt64 (narrow s.length)
  rw [RingInv.toInt_length h] at hmax
  exact toInt_narrow _ (by unfold minInt64; omega) (by omega)

/-- A WRITETO of a sound state is at label `l`, and no sample lags. -/
structure State.WritingOut (s : State) (l : Label) : Prop where
  turn : s.turn = .C
  noLag : s.params.sampleLag = .none
  params : s.params.ok = true
  ready : s.ReadyInv
  phase : s.cPort.phase = .run .writeTo l

/-- WRITETO run alone comes from `s` to the label `l`, in `u`, in at most `m` steps. It has written nothing of the
producer's, no byte of `BUF` and no configuration, and has not answered. -/
structure State.WritesOutTo (s : State) (m : Nat) (l : Label) (u : State) : Prop where
  comes : s.ComesTo .writeTo m u
  state : u.WritingOut l
  pseq : u.pseq = s.pseq
  rsv : u.rsv = s.rsv
  buf : u.buf = s.buf
  done : u.done = s.done
  mask : u.mask = s.mask
  params : u.params = s.params
  responses : u.cPort.responses = s.cPort.responses

theorem State.WritesOutTo.trans {s u v : State} {m n : Nat} {l k : Label} (h : s.WritesOutTo m l u)
    (h' : u.WritesOutTo n k v) : s.WritesOutTo (n + m) k v where
  comes := h.comes.trans h'.comes
  state := h'.state
  pseq := h'.pseq.trans h.pseq
  rsv := h'.rsv.trans h.rsv
  buf := h'.buf.trans h.buf
  done := h'.done.trans h.done
  mask := h'.mask.trans h.mask
  params := h'.params.trans h.params
  responses := h'.responses.trans h.responses

section
variable {s u : State} {l k : Label} (h : s.WritingOut l)
include h

theorem State.WritingOut.shared : s.SharedInv := h.ready.shared h.params

theorem State.WritingOut.label : s.CLabelInv .writeTo l := (PhaseInv.run (h.ready.phaseInv .C) h.phase).2

/-- A step of WRITETO leaves the producer's part, the configuration and the invariant as they are. -/
theorem State.WritingOut.step (hx : exec .writeTo s = .next u) (hp : u.cPort.phase = .run .writeTo k)
    (hresp : u.cPort.responses = s.cPort.responses) : s.WritesOutTo 1 k u := by
  have hf := exec_frame hx
  have hside : u.producerSide = s.producerSide := hf.producerSide (.inl rfl)
  simp only [State.producerSide, Prod.mk.injEq] at hside
  obtain ⟨hpseq, hrsv, hbuf, -⟩ := hside
  have hcfg := (exec_keepsConfiguration _ hx).configuration
  have hparams : u.params = s.params := congrArg Configuration.params hcfg
  have ht : u.turn = .C := hf.turn.trans h.turn
  exact
    { comes := comesTo_of_exec hx (phase_of_cPort ht hp)
      state := ⟨ht, hparams ▸ h.noLag, hparams ▸ h.params, (exec_advances h.ready h.params hx).ready, hp⟩
      pseq := hpseq
      rsv := hrsv
      buf := hbuf
      done := hf.done nofun
      mask := congrArg Configuration.mask hcfg
      params := hparams
      responses := hresp }

end

/-! #### The view and the sink -/

section
variable {s : State}

/-- B1 and the wait of a WRITETO with data present (R120; 41_consumer_commands.md R107). -/
theorem State.WritingOut.waits (h : s.WritingOut .B1) (hlt : s.cseq.cursor.toInt < s.pseq.cursor.toInt) :
    s.WritesOutTo 4 .B3 (s.withData .writeTo s.c s.acceptedPort) := by
  have ht := h.turn
  obtain ⟨-, hn⟩ := h.label
  obtain ⟨-, -, hw, -⟩ := Params.ok_facts h.params
  obtain ⟨hsize, -, -, hrblk, -⟩ := SizeInv.facts h.ready.size
  have h0 : 0 ≤ s.c.n.toInt := hn ▸ Int.natCast_nonneg _
  have hB1 := exec_B1_writeTo ht h.phase h0 (by omega)
  have hcomes : s.ComesTo .writeTo 4 (s.withData .writeTo s.c s.acceptedPort) := fun m t hend =>
    (wait_with_data ht h.noLag rfl hlt hend).step_C hB1 ht rfl
  have hready : (s.withData .writeTo s.c s.acceptedPort).ReadyInv :=
    { withData_shared h.shared with
      pPhase := h.ready.pPhase
      cPhase := ⟨rfl, ⟨h0, .inr (.inr ⟨rfl, hn⟩)⟩, nofun, withData_dataHeld h.shared hlt⟩ }
  exact ⟨hcomes, ⟨ht, h.noLag, h.params, hready, rfl⟩, rfl, rfl, rfl, rfl, rfl, rfl, acceptedPort_responses_C ht⟩

/-- B3 latches the view the inner PEEK shows (R120; 41_consumer_commands.md R110). -/
theorem State.WritingOut.shows (h : s.WritingOut .B3) :
    ∃ u, s.WritesOutTo 1 .T2 u ∧ (u.c.view.length : Int) = min s.c.n.toInt s.c.avail.toInt ∧
      s.Holds s.c.cpos.toInt u.c.view ∧ u.c.m = narrow u.c.view.length ∧ u.c.total = s.c.total ∧ u.cseq = s.cseq ∧
      u.env = s.env := by
  obtain ⟨⟨hn, -⟩, -, hd⟩ := h.label
  obtain ⟨v, aux, tmp, hview, hB3⟩ := peekStep_B3_view h.shared hn hd
  have hx : exec .writeTo s = .next
      ((s.setTmp tmp).withC
        { s.c with m := narrow v.length, start := narrow (s.idx s.c.cpos), view := v }
        { s.cPort with phase := .run .writeTo .T2 }) := by
    rw [exec_middle_C h.turn rfl h.phase]
    refine (hB3 writeToAfterPeek).trans ((writeToAfterPeek_view _ _ _ _ _ _).trans ?_)
    exact goto_eq_withC
      (s := (s.viewed v tmp).setC { (s.viewed v tmp).c with m := narrow v.length, view := v }) h.turn h.phase .T2
  exact ⟨_, h.step hx rfl rfl, hview.length, hview.holds, rfl, rfl, rfl, rfl⟩

/-- From B1 to T2 with data present: the view is the unread bytes up to `WBLK` (R120). -/
theorem State.WritingOut.peeks (h : s.WritingOut .B1) (hlt : s.cseq.cursor.toInt < s.pseq.cursor.toInt) :
    ∃ u, s.WritesOutTo 5 .T2 u ∧ (u.c.view.length : Int) = min (s.params.wblk : Int) s.length ∧
      s.Holds s.cseq.cursor.toInt u.c.view ∧ u.c.m = narrow u.c.view.length ∧ u.c.total = s.c.total ∧
      u.cseq = s.cseq ∧ u.env = s.env := by
  have hwait := h.waits hlt
  obtain ⟨u, hshow, hlen, hh, hm, htotal, hcseq, henv⟩ := hwait.state.shows
  have havail : (s.withData .writeTo s.c s.acceptedPort).c.avail.toInt = s.length := RingInv.toInt_length h.ready.ring
  have hn : (s.withData .writeTo s.c s.acceptedPort).c.n.toInt = s.params.wblk := h.label.2
  rw [havail, hn] at hlen
  exact ⟨u, hwait.trans hshow, hlen, hh, hm, htotal, hcseq, henv⟩

/-- T2: the sink is given the view and answers (R117). -/
theorem State.WritingOut.feeds (h : s.WritingOut .T2) {a : SinkAnswer} {rest : List SinkAnswer}
    (hsink : s.env.sink = a :: rest) (hfits : a.fits s.c.view = true) :
    ∃ u, s.WritesOutTo 1 .T3 u ∧ u.c = { s.c with k := narrow a.count, err := a.err } ∧ u.cseq = s.cseq ∧
      u.env = s.fedEnv rest :=
  ⟨_, h.step (exec_T2 h.turn h.phase hsink hfits) rfl rfl, rfl, rfl, rfl⟩

/-- M1 and M2: the inner COMMIT finds the bytes it commits (R120; 41_consumer_commands.md R112). -/
theorem State.WritingOut.commits (h : s.WritingOut .M1) :
    ∃ u, s.WritesOutTo 2 .M3 u ∧ u.c = { s.c with cpos := s.cseq.cursor, ppos := s.pseq.cursor } ∧ u.cseq = s.cseq ∧
      u.env = s.env := by
  obtain ⟨-, h0, hle⟩ := h.label
  obtain ⟨-, -, hps, -⟩ := h.ready.ring
  have hM1 := h.step (exec_M1_writeTo h.turn h.phase h0 (by omega)) rfl (acceptedPort_responses_C h.turn)
  have hM2 := hM1.state.step
    (exec_M2_writeTo hM1.state.turn hM1.state.phase (sample_eq_pseq hM1.state.turn h.noLag)
      (show s.c.n.toInt ≤ s.pseq.cursor.toInt - s.cseq.cursor.toInt by omega)) rfl rfl
  exact ⟨_, hM1.trans hM2, rfl, rfl, rfl⟩

end

/-- A WRITETO that an IDLE port of a sound state accepts starts its inner PEEK (R120). -/
theorem writeTo_starts {s : State} (hinv : s.Inv) (hcfg : s.cfgState = .ready) (hlag : s.params.sampleLag = .none)
    (ht : s.turn = .C) (hp : s.phase = .idle) : s.ComesTo .writeTo 1 s.atB1 ∧ s.atB1.WritingOut .B1 :=
  have hx := exec_writeTo_first ht hp hcfg
  ⟨comesTo_of_exec hx (phase_of_cPort (s := s.atB1) ht rfl),
    ht, hlag, hinv.params, (exec_advances (hinv.ready hcfg) hinv.params hx).ready, rfl⟩

/-! #### A sink that fails -/

/-- What a WRITETO makes of the state `s` when its sink takes `k` bytes of a view and fails with the code `x`: the
cursor is `w`, and the code is answered with the running total (R120). -/
structure State.Fails (s : State) (k : Word) (x : Byte) (w : Word) (t : State) : Prop where
  phase : t.phase = .idle
  responses : t.cPort.responses = s.cPort.responses ++ [⟨.ext x, narrow (s.c.total.toInt + k.toInt), 0, []⟩]
  cursor : t.cseq.cursor = w
  pseq : t.pseq = s.pseq
  buf : t.buf = s.buf
  done : t.done = s.done
  rsv : t.rsv = s.rsv

section
variable {s : State} {x : Byte}

/-- T3 after an error, where the bytes the sink took are not committed (R120). -/
theorem State.WritingOut.fails (h : s.WritingOut .T3) (he : s.c.err = some x)
    (hq : s.params.commitOnSinkError = false) :
    ∃ t, s.OverWithin .writeTo 1 t ∧ s.Fails s.c.k x s.cseq.cursor t := by
  have hidle := phase_of_cPort
    (s := s.withC { s.c with total := narrow (s.c.total.toInt + s.c.k.toInt) }
      (s.cPort.answered ⟨.ext x, narrow (s.c.total.toInt + s.c.k.toInt), 0, []⟩)) h.turn rfl
  exact ⟨_, overWithin_last (exec_T3_failed h.turn h.phase he hq) hidle, hidle, rfl, rfl, rfl, rfl, rfl, rfl⟩

/-- T3 after an error and the COMMIT of the bytes the sink took, under `WRITETO_COMMIT_ON_SINK_ERROR` (R120). -/
theorem State.WritingOut.fails_committing (h : s.WritingOut .T3) (he : s.c.err = some x)
    (hq : s.params.commitOnSinkError = true) :
    ∃ t, s.OverWithin .writeTo 4 t ∧ s.Fails s.c.k x (narrow (s.cseq.cursor.toInt + s.c.k.toInt)) t := by
  have hT3 := h.step (exec_T3_partial h.turn h.phase he hq) rfl rfl
  obtain ⟨u, hcommit, hc, -, -⟩ := hT3.state.commits
  have hgo := hT3.trans hcommit
  have herr : u.c.err = some x := by rw [hc]; exact he
  have hM3 := exec_M3_failed hgo.state.turn hgo.state.phase herr
  have hidle := phase_of_cPort
    (s := (u.storeCseq (narrow (u.c.cpos.toInt + u.c.n.toInt))).withC u.c
      (u.cPort.answered ⟨.ext x, u.c.total, 0, []⟩)) hgo.state.turn rfl
  have hcpos : u.c.cpos = s.cseq.cursor := by rw [hc]; rfl
  have hn : u.c.n = s.c.k := by rw [hc]; rfl
  have hcursor : narrow (u.c.cpos.toInt + u.c.n.toInt) = narrow (s.cseq.cursor.toInt + s.c.k.toInt) := by
    rw [hcpos, hn]
  refine ⟨_, hgo.comes _ _ (overWithin_last hM3 hidle), hidle, ?_, hcursor, hgo.pseq, hgo.buf, hgo.done, hgo.rsv⟩
  exact congrArg₂ (fun (rs : List Response) (c : CLatches) => rs ++ [⟨.ext x, c.total, 0, []⟩]) hgo.responses hc

/-- From T3 after an error to the response (R120, R124). -/
theorem State.WritingOut.ends_failed (h : s.WritingOut .T3) (he : s.c.err = some x) :
    ∃ t, s.OverWithin .writeTo 4 t ∧
      s.Fails s.c.k x
        (if s.params.commitOnSinkError then narrow (s.cseq.cursor.toInt + s.c.k.toInt) else s.cseq.cursor) t := by
  split
  · next hq => exact h.fails_committing he hq
  · next hq =>
    obtain ⟨t, hover, hfails⟩ := h.fails he (by simpa using hq)
    exact ⟨t, hover.mono.mono.mono, hfails⟩

end

/-- Settles O39: the view (`State.WritingOut.peeks`), the sink's answer, and T3 with and without the COMMIT
(`State.WritingOut.ends_failed`). -/
theorem writeToReportsSinkError : Obligations.WriteToReportsSinkError := by
  intro s a rest x hinv hcfg hlag ht hp hlen hsink hcount herr hx
  have hring := (hinv.ready hcfg).ring
  have hk := RingInv.toInt_unread hring (k := a.count) (by omega)
  have hlt : s.cseq.cursor.toInt < s.pseq.cursor.toInt := by
    unfold State.length at hlen
    omega
  obtain ⟨hstart, hB1⟩ := writeTo_starts hinv hcfg hlag ht hp
  obtain ⟨u, hpeek, hview, -, -, htotal, hcseq, henv⟩ := hB1.peeks hlt
  have hle : a.count ≤ u.c.view.length := Int.ofNat_le.1 (hcount.trans hview.ge)
  have hfits : a.fits u.c.view = true := by simpa [SinkAnswer.fits, herr, extCodeOk, hx] using hle
  obtain ⟨v, hfeed, hc, hcseq', -⟩ := hpeek.state.feeds (henv ▸ hsink) hfits
  have hgo := hpeek.trans hfeed
  obtain ⟨t, hover, hfails⟩ := hgo.state.ends_failed (x := x) (by rw [hc]; exact herr)
  have hvk : v.c.k = narrow a.count := by rw [hc]
  have hvtotal : v.c.total.toInt = 0 := by
    rw [hc]
    exact congrArg BitVec.toInt htotal
  have hvcseq : v.cseq = s.cseq := hcseq'.trans hcseq
  have hvparams : v.params = s.params := hgo.params
  refine ⟨t, hstart _ _ (hgo.comes _ _ hover) 0, hfails.phase, ?_, ?_, hfails.pseq.trans hgo.pseq,
    hfails.buf.trans hgo.buf, hfails.done.trans hgo.done, hfails.rsv.trans hgo.rsv⟩
  · rw [hfails.responses, hgo.responses, hvtotal, hvk, hk, zero_add]
    exact congrArg (· ++ _) (acceptedPort_responses_C ht)
  · rw [hfails.cursor, hvcseq, hvk, hvparams, hk]
    split
    · exact RingInv.toInt_committed hring (Int.natCast_nonneg _) (by omega)
    · simp

/-! #### A sink that takes every view -/

/-- The views of a ring that is not empty: the first, and those of what is left (R120). -/
theorem viewSizes_of_pos {w n : Nat} (hw : 1 ≤ w) (hn : 1 ≤ n) :
    viewSizes w n = min w n :: viewSizes w (n - w) := by
  have hcount : (n + w - 1) / w = (n - w + w - 1) / w + 1 := by
    rcases Nat.lt_or_ge n w with h | h
    · have h0 : (n - w + w - 1) / w = 0 := Nat.div_eq_of_lt (by omega)
      have h1 : (n + w - 1) / w = 1 := Nat.div_eq_of_lt_le (by omega) (by omega)
      rw [h0, h1]
    · rw [Nat.sub_add_cancel h, ← Nat.add_div_right _ hw]
      congr 1
      omega
  simp only [viewSizes, hcount, List.range_succ_eq_map, List.map_cons, List.map_map, Nat.zero_mul, Nat.sub_zero,
    List.cons.injEq, true_and]
  refine List.map_congr_left fun j _ => ?_
  simp only [Function.comp_apply, Nat.succ_eq_add_one, Nat.add_mul, Nat.one_mul]
  omega

theorem viewSizes_zero (w : Nat) (hw : 1 ≤ w) : viewSizes w 0 = [] := by
  simp [viewSizes, Nat.div_eq_of_lt (by omega : w - 1 < w)]

/-- Storing a sum is adding what is stored. -/
theorem narrow_add (x y : Int) : narrow (x + y) = narrow x + narrow y := BitVec.ofInt_add x y

/-- From T3 without an error to the next inner PEEK: the whole view is committed and counted (R120). -/
theorem State.WritingOut.goes_round {s : State} (h : s.WritingOut .T3) (he : s.c.err = none) :
    ∃ u, s.WritesOutTo 4 .B1 u ∧ u.cseq.cursor = narrow (s.cseq.cursor.toInt + s.c.m.toInt) ∧
      u.c.total = s.c.total + s.c.m ∧ u.env = s.env := by
  have hT3 := h.step (exec_T3_taken h.turn h.phase he) rfl rfl
  obtain ⟨u, hcommit, hc, -, henv⟩ := hT3.state.commits
  have hM3 := hcommit.state.step
    (exec_M3_again hcommit.state.turn hcommit.state.phase (by rw [hc]; exact he)) rfl rfl
  have hcpos : u.c.cpos = s.cseq.cursor := by rw [hc]; rfl
  have hn : u.c.n = s.c.m := by rw [hc]; rfl
  have hm : u.c.m = s.c.m := by rw [hc]; rfl
  have htotal : u.c.total = s.c.total := by rw [hc]; rfl
  have hcursor : narrow (u.c.cpos.toInt + u.c.n.toInt) = narrow (s.cseq.cursor.toInt + s.c.m.toInt) := by
    rw [hcpos, hn]
  have hsum : narrow (u.c.total.toInt + u.c.m.toInt) = s.c.total + s.c.m := by
    rw [narrow_add, narrow_toInt, narrow_toInt, htotal, hm]
  exact ⟨_, (hT3.trans hcommit).trans hM3, hcursor, hsum, henv⟩

/-- From `s` to `u` the sink has taken the view `v`, which is committed and counted; `rest` are its answers to come. -/
structure State.HandsOver (s : State) (v : List Byte) (rest : List SinkAnswer) (u : State) : Prop where
  goes : s.WritesOutTo 10 .B1 u
  holds : s.Holds s.cseq.cursor.toInt v
  cursor : u.cseq.cursor.toInt = s.cseq.cursor.toInt + v.length
  total : u.c.total = s.c.total + narrow v.length
  sink : u.env.sink = rest
  delivered : u.env.delivered = s.env.delivered ++ [v]

/-- One round of WRITETO, from an inner PEEK to the next, with data present and a sink that takes the view (R120). -/
theorem State.WritingOut.round {s : State} (h : s.WritingOut .B1) (hlt : s.cseq.cursor.toInt < s.pseq.cursor.toInt)
    {a : SinkAnswer} {rest : List SinkAnswer} (hsink : s.env.sink = a :: rest) (he : a.err = none)
    (hcount : (a.count : Int) = min (s.params.wblk : Int) s.length) :
    ∃ v u, v.length = a.count ∧ s.HandsOver v rest u := by
  obtain ⟨u, hpeek, hlen, hh, hm, htotal, hcseq, henv⟩ := h.peeks hlt
  have hview : u.c.view.length = a.count := by omega
  obtain ⟨w, hfeed, hc, hcseq', henv'⟩ := hpeek.state.feeds (henv ▸ hsink) (by simp [SinkAnswer.fits, he, hview])
  obtain ⟨t, hround, hcursor, hsum, henv''⟩ := hfeed.state.goes_round (by rw [hc]; exact he)
  have hwm : w.c.m = narrow u.c.view.length := by rw [hc]; exact hm
  have hwtotal : w.c.total = s.c.total := by rw [hc]; exact htotal
  have hk := RingInv.toInt_unread h.ready.ring (k := u.c.view.length) (by omega)
  have hadvance := RingInv.toInt_committed h.ready.ring (Int.natCast_nonneg u.c.view.length) (by omega)
  have hfed : t.env = u.fedEnv rest := henv''.trans henv'
  refine ⟨u.c.view, t, hview, (hpeek.trans hfeed).trans hround, hh, ?_, ?_, ?_, ?_⟩
  · rw [hcursor, hwm, hk, hcseq', hcseq, hadvance]
  · rw [hsum, hwtotal, hwm]
  · rw [hfed]
    rfl
  · rw [hfed, State.fedEnv, henv]

/-- What WRITETO makes of the state `s` when it starts an inner PEEK on a closed ring and its sink takes every view: the
views `vs` are the unread bytes, all are committed, and their number is added to the answer (R120, R122 (c)). -/
structure State.Drained (s : State) (vs : List (List Byte)) (rest : List SinkAnswer) (t : State) : Prop where
  phase : t.phase = .idle
  unread : s.unread = vs.flatten.map some
  sizes : vs.map List.length = viewSizes s.params.wblk s.length.toNat
  delivered : t.env.delivered = s.env.delivered ++ vs
  sink : t.env.sink = rest
  responses : t.cPort.responses = s.cPort.responses ++ [⟨.eos, s.c.total + narrow s.length, 0, []⟩]
  cursor : t.cseq.cursor = s.pseq.cursor
  pseq : t.pseq = s.pseq
  buf : t.buf = s.buf
  done : t.done = s.done
  rsv : t.rsv = s.rsv

/-- On a closed and empty ring the inner PEEK ends the command (R120, R122). -/
theorem State.WritingOut.drained_empty {s : State} (h : s.WritingOut .B1) (hempty : s.length = 0) (hd : s.done = true) :
    ∃ t, s.OverWithin .writeTo 4 t ∧ s.Drained [] s.env.sink t := by
  have ht := h.turn
  have hcursor : s.cseq.cursor = s.pseq.cursor := BitVec.eq_of_toInt_eq (by unfold State.length at hempty; omega)
  obtain ⟨-, hn⟩ := h.label
  obtain ⟨-, hblk, hw, -⟩ := Params.ok_facts h.params
  obtain ⟨hsize, -, -, hrblk, -⟩ := SizeInv.facts h.ready.size
  have hB1 := exec_B1_writeTo ht h.phase (hn ▸ Int.natCast_nonneg _) (by omega)
  have hend := wait_on_closed_empty (i := .writeTo) (c := s.c) (x := s.acceptedPort) ht h.noLag rfl hcursor hd
  refine ⟨_, hend.step_C hB1 ht rfl, ?_⟩
  exact
    { phase := phase_of_cPort (s := s.bumpCwait.withC _ _) ht rfl
      unread := by simp [State.unread, bytesAt_eq, hcursor]
      sizes := by rw [hempty, Int.toNat_zero, viewSizes_zero _ hblk, List.map_nil]
      delivered := (List.append_nil _).symm
      sink := rfl
      responses := by
        rw [hempty, show narrow 0 = 0 from rfl, add_zero]
        exact congrArg (· ++ [⟨.eos, s.c.total, 0, []⟩]) (acceptedPort_responses_C ht)
      cursor := hcursor
      pseq := rfl
      buf := rfl
      done := rfl
      rsv := rfl }

section
variable {s u : State} {v : List Byte} {more : List SinkAnswer} (h : s.HandsOver v more u)
include h

/-- A view that is handed over is taken off the length. -/
theorem State.HandsOver.length : u.length = s.length - v.length := by
  unfold State.length
  rw [h.goes.pseq, h.cursor]
  omega

/-- The bytes handed over are the first of the unread ones (20_memory.md R53). -/
theorem State.HandsOver.unread (hle : (v.length : Int) ≤ s.length) : s.unread = v.map some ++ u.unread := by
  have hat : ∀ q, u.at q = s.at q := fun q => by
    simp only [State.at, State.idx, h.goes.buf, h.goes.mask]
  unfold State.length at hle
  rw [State.unread, State.unread, h.goes.pseq, h.cursor, bytesAt_congr fun q _ _ => hat q, ← h.holds.bytesAt]
  exact (bytesAt_append (by omega) (by omega)).symm

/-- A round, and then the draining of what is left, drain the ring (R120). -/
theorem State.HandsOver.drained (hw : 1 ≤ s.params.wblk) (hpos : 1 ≤ s.length)
    (hv : (v.length : Int) = min (s.params.wblk : Int) s.length) {t : State} {vs : List (List Byte)}
    {rest : List SinkAnswer} (hu : u.Drained vs rest t) : s.Drained (v :: vs) rest t where
  phase := hu.phase
  unread := by rw [h.unread (by omega), hu.unread, List.flatten_cons, List.map_append]
  sizes := by
    have hleft : u.length.toNat = s.length.toNat - s.params.wblk := by rw [h.length]; omega
    rw [List.map_cons, hu.sizes, h.goes.params, hleft,
      viewSizes_of_pos (n := s.length.toNat) hw (by omega)]
    congr 1
    omega
  delivered := by rw [hu.delivered, h.delivered, List.append_assoc, List.singleton_append]
  sink := hu.sink
  responses := by
    have hsum : u.c.total + narrow u.length = s.c.total + narrow s.length := by
      rw [h.total, BitVec.add_assoc, ← narrow_add, h.length]
      congr 2
      omega
    rw [hu.responses, hsum, h.goes.responses]
  cursor := by rw [hu.cursor, h.goes.pseq]
  pseq := hu.pseq.trans h.goes.pseq
  buf := hu.buf.trans h.goes.buf
  done := hu.done.trans h.goes.done
  rsv := hu.rsv.trans h.goes.rsv

end

/-- WRITETO drains a closed ring, view after view, by induction on the sink's answers (R120, R122 (c)). -/
theorem writeTo_drains (rest as : List SinkAnswer) (he : ∀ a ∈ as, a.err = none) {s : State} (h : s.WritingOut .B1)
    (hd : s.done = true) (hsink : s.env.sink = as ++ rest)
    (hcounts : as.map SinkAnswer.count = viewSizes s.params.wblk s.length.toNat) :
    ∃ fuel t vs, s.OverWithin .writeTo fuel t ∧ s.Drained vs rest t := by
  have hw : 1 ≤ s.params.wblk := (Params.ok_facts h.params).2.1
  have hnonneg : 0 ≤ s.length := sub_nonneg.2 h.ready.ring.2.1
  induction as generalizing s with
  | nil =>
    have hempty : s.length = 0 := by
      by_contra hne
      rw [viewSizes_of_pos hw (by omega)] at hcounts
      cases hcounts
    obtain ⟨t, hover, hdrained⟩ := h.drained_empty hempty hd
    rw [hsink, List.nil_append] at hdrained
    exact ⟨4, t, [], hover, hdrained⟩
  | cons a as ih =>
    have hpos : 1 ≤ s.length := by
      by_contra hne
      rw [show s.length.toNat = 0 by omega, viewSizes_zero _ hw] at hcounts
      cases hcounts
    rw [viewSizes_of_pos hw (by omega), List.map_cons, List.cons.injEq] at hcounts
    obtain ⟨hcount, hcounts⟩ := hcounts
    have hlt : s.cseq.cursor.toInt < s.pseq.cursor.toInt := by
      unfold State.length at hpos
      omega
    obtain ⟨v, u, hv, hround⟩ := h.round hlt hsink (he a List.mem_cons_self) (by omega)
    have hlen := hround.length
    obtain ⟨fuel, t, vs, hover, hdrained⟩ := ih (fun a ha => he a (List.mem_cons_of_mem _ ha)) hround.goes.state
      (hround.goes.done.trans hd) hround.sink (by rw [hcounts, hround.goes.params]; congr 1; omega)
      (by rw [hround.goes.params]; exact hw) (by omega)
    exact ⟨_, t, v :: vs, hround.goes.comes _ _ hover, hround.drained hw hpos (by omega) hdrained⟩

/-- Settles O38: acceptance, and the rounds of a WRITETO on a closed ring (`writeTo_drains`). -/
theorem writeToDrainsClosedRing : Obligations.WriteToDrainsClosedRing := by
  intro s as rest hinv hcfg hlag ht hp hd hsink hcounts he
  obtain ⟨hstart, hB1⟩ := writeTo_starts hinv hcfg hlag ht hp
  obtain ⟨fuel, t, vs, hover, hdrained⟩ := writeTo_drains rest as he hB1 hd hsink hcounts
  have hresp : t.cPort.responses = s.cPort.responses ++ [⟨.eos, narrow s.length, 0, []⟩] := by
    rw [hdrained.responses, ← acceptedPort_responses_C ht]
    exact congrArg (fun n => s.acceptedPort.responses ++ [⟨.eos, n, 0, []⟩]) (BitVec.zero_add _)
  exact ⟨_, t, vs, hstart _ _ hover 0, hdrained.phase, hdrained.unread, hdrained.sizes, hdrained.delivered,
    hdrained.sink, hresp, hdrained.cursor, hdrained.pseq, hdrained.buf, hdrained.done, hdrained.rsv⟩

end Sys2Proof.Machine
end

section
/-! PROOFS, family 43_common_commands.md. What a step of LEN, ID or CLOSE leaves alone, and what each of them answers on
either port. -/

namespace Sys2Proof.Machine

/-! ### What a step of LEN, ID or CLOSE leaves alone (43_common_commands.md R131) -/

/-- `s` with `DONE`, the latches and the ports blanked: what is left of it no step of LEN, ID or CLOSE writes. -/
def State.beyondCommon (s : State) : State :=
  { s with
    done := false, p := PLatches.reset, c := CLatches.reset, pPort := PortState.reset, cPort := PortState.reset }

section
variable (s : State)

@[simp] theorem setP_beyondCommon (x : PLatches) : (s.setP x).beyondCommon = s.beyondCommon := rfl
@[simp] theorem setC_beyondCommon (x : CLatches) : (s.setC x).beyondCommon = s.beyondCommon := rfl
@[simp] theorem setDone_beyondCommon : s.setDone.beyondCommon = s.beyondCommon := rfl

@[simp] theorem setPort_beyondCommon (a : Port) (x : PortState) : (s.setPort a x).beyondCommon = s.beyondCommon := by
  cases a <;> rfl

@[simp] theorem goto_beyondCommon (l : Label) : (s.goto l).beyondCommon = s.beyondCommon := by
  simp [State.goto]

@[simp] theorem respond_beyondCommon (r : Response) : (s.respond r).beyondCommon = s.beyondCommon := by
  simp [State.respond]

@[simp] theorem noteSample_beyondCommon : s.noteSample.beyondCommon = s.beyondCommon := by
  simp [State.noteSample]

@[simp] theorem latchOperands_beyondCommon (i : Instr) : (latchOperands i s).beyondCommon = s.beyondCommon := by
  cases i <;> rfl

@[simp] theorem accept_beyondCommon (i : Instr) (l : Label) : (accept i l s).beyondCommon = s.beyondCommon := by
  simp [accept]

end

section
variable {s t v : State} {i : Instr} {l : Label}

theorem State.Enters.beyondCommon (h : s.Enters i l v) : v.beyondCommon = s.beyondCommon := by
  obtain ⟨-, rfl⟩ | ⟨-, -, rfl⟩ := h.start
  · rfl
  · exact accept_beyondCommon s i l

theorem lenStep_beyondCommon (h : lenStep l s = .next t) : t.beyondCommon = s.beyondCommon := by
  rcases lenStep_next h with ⟨-, -, rfl⟩ | ⟨-, -, rfl⟩ | ⟨-, -, rfl⟩ | ⟨-, -, rfl⟩ <;> simp

theorem identStep_beyondCommon (h : identStep l s = .next t) : t.beyondCommon = s.beyondCommon := by
  obtain ⟨-, rfl⟩ := identStep_next h
  simp

theorem closeStep_beyondCommon (h : closeStep l s = .next t) : t.beyondCommon = s.beyondCommon := by
  obtain ⟨-, rfl⟩ := closeStep_next h
  simp

/-- A step of LEN, ID or CLOSE writes `DONE`, latches and ports only (R131). -/
theorem exec_beyondCommon (hi : i = .len ∨ i = .ident ∨ i = .close) (h : exec i s = .next t) :
    t.beyondCommon = s.beyondCommon := by
  rcases exec_next h with ⟨-, -, rfl⟩ | ⟨l, v, hv, -, -, h⟩
  · exact respond_beyondCommon s _
  · rw [← hv.beyondCommon]
    rcases hi with rfl | rfl | rfl
    · exact lenStep_beyondCommon h
    · exact identStep_beyondCommon h
    · exact closeStep_beyondCommon h

theorem sameRegisters_of_beyondCommon (h : t.beyondCommon = s.beyondCommon) (hd : t.done = s.done) :
    s.SameRegisters t where
  pseq := (congrArg State.pseq h :)
  cseq := (congrArg State.cseq h :)
  done := hd
  size := (congrArg State.size h :)
  mask := (congrArg State.mask h :)
  ident := (congrArg State.ident h :)
  cwait := (congrArg State.cwait h :)
  cfgState := (congrArg State.cfgState h :)
  cfgErr := (congrArg State.cfgErr h :)
  hint := (congrArg State.hint h :)
  rsv := (congrArg State.rsv h :)
  buf := (congrArg State.buf h :)
  tmp := (congrArg State.tmp h :)

/-- ID and CLOSE use no latch of either agent (R127, R128). -/
theorem exec_keeps_latches (hi : i = .ident ∨ i = .close) (h : exec i s = .next t) : t.p = s.p ∧ t.c = s.c := by
  rcases exec_next h with ⟨-, -, rfl⟩ | ⟨l, v, hv, -, -, h⟩
  · exact ⟨respond_p s _, respond_c s _⟩
  · rcases hi with rfl | rfl
    · obtain ⟨-, rfl⟩ := identStep_next h
      simp [hv.p rfl, hv.c rfl]
    · obtain ⟨-, rfl⟩ := closeStep_next h
      simp [hv.p rfl, hv.c rfl]

end

/-- Settles O42: what the three commands never write (`exec_beyondCommon`), the frame every command has (`exec_frame`),
and the latches (`exec_keeps_latches`). -/
theorem commonFrame : Obligations.CommonFrame := by
  intro i s t hi h
  have hf := exec_frame h
  have hb := exec_beyondCommon hi h
  have hproducer : s.turn = .C → t.p = s.p := fun ht => by
    have hside := hf.producerSide (.inr ht)
    simp only [State.producerSide, Prod.mk.injEq] at hside
    obtain ⟨-, -, -, hlatches, -⟩ := hside
    exact hlatches
  have hconsumer : s.turn = .P → t.c = s.c := fun ht => by
    have hside := hf.consumerSide (.inr ht)
    simp only [State.consumerSide, Prod.mk.injEq] at hside
    obtain ⟨-, -, -, hlatches, -⟩ := hside
    exact hlatches
  exact ⟨sameRegisters_of_beyondCommon (s := { s with done := t.done }) hb rfl, hf.done, hf.other, hf.turn,
    (congrArg State.env hb :), by rw [hf.turn]; exact hf.script,
    fun hne => exec_keeps_latches (hi.resolve_left hne) h, hproducer, hconsumer⟩

/-! ### An IDLE port takes LEN, ID or CLOSE -/

theorem respond_setPort (s : State) (x : PortState) (ph : Phase) (r : Response) :
    (s.setPort s.turn { x with phase := ph }).respond r = s.setPort s.turn (x.answered r) := by
  simp [State.respond, PortState.answered]

theorem setDone_setPort (s : State) (a : Port) (x : PortState) :
    (s.setPort a x).setDone = s.setDone.setPort a x := by
  cases a <;> rfl

section
variable {s : State} (hp : s.phase = .idle) (hcfg : s.cfgState = .ready)
include hp hcfg

/-- The state in which the first step of one of the three commands is taken: they have no operand to latch, and neither
the port nor a reservation nor a payload stands against them (30_encoding.md R76, R77, R86; log entry 7). -/
theorem exec_first_common {i : Instr} (hi : i = .len ∨ i = .ident ∨ i = .close) :
    exec i s =
      stepOf i (firstLabel i) (s.setPort s.turn { s.acceptedPort with phase := .run i (firstLabel i) }) := by
  have hlegal : legal s.turn i s = true := by
    rcases hi with rfl | rfl | rfl <;> exact legal_eq_true.2 ⟨hcfg, rfl, rfl⟩
  have hfits : i.payloadFits s.size (s.port s.turn).payload = true := by
    rcases hi with rfl | rfl | rfl <;> rfl
  have hlatch : accept i (firstLabel i) s =
      s.setPort s.turn { s.acceptedPort with phase := .run i (firstLabel i) } := by
    rcases hi with rfl | rfl | rfl <;> rfl
  simp only [exec_eq_command, command, hp, hlegal, hfits, hlatch, if_true]

/-- ID at its one step (43_common_commands.md R127). -/
theorem exec_ident_idle :
    exec .ident s = .next (s.setPort s.turn (s.acceptedPort.answered ⟨.ok, s.ident, 0, []⟩)) := by
  rw [exec_first_common hp hcfg (.inr (.inl rfl)), ← respond_setPort s _ (.run .ident .I1)]
  simp only [stepOf, firstLabel, identStep, respond, setPort_ident]

/-- CLOSE at its one step (R128). -/
theorem exec_close_idle :
    exec .close s = .next (s.setPort s.turn (s.acceptedPort.answered ⟨.ok, 0, 0, []⟩)).setDone := by
  rw [exec_first_common hp hcfg (.inr (.inr rfl)), setDone_setPort]
  simp only [stepOf, firstLabel, closeStep, setDone_setPort]
  exact congrArg Host.Outcome.next (respond_setPort s.setDone s.acceptedPort _ _)

end

/-- Settles O24: the one step of CLOSE (`exec_close_idle`); where `DONE` is set already it writes no register. -/
theorem closeSetsDone : Obligations.CloseSetsDone := by
  refine ⟨fun s hcfg hp => exec_close_idle hp hcfg, fun s t _ _ hd h => ?_⟩
  have hdone : t.done = s.done := ((exec_keepsConfiguration .close h).done hd).trans hd.symm
  exact sameRegisters_of_beyondCommon (exec_beyondCommon (.inr (.inr rfl)) h) hdone

/-- Settles O23: the one step of ID (`exec_ident_idle`); `ID` is configuration, which no command writes. -/
theorem idAnswersIdentifier : Obligations.IdAnswersIdentifier :=
  ⟨fun _ hcfg hp => exec_ident_idle hp hcfg,
    fun i _ _ h => congrArg Configuration.ident (exec_keepsConfiguration i h).configuration,
    fun _ _ _ _ h => by simp [resetWith, h]⟩

/-! ### LEN (43_common_commands.md R126) -/

/-- The state in which a LEN that was accepted on port `a` makes its second load: its agent has latched its own cursor. -/
def State.atL2 (s : State) : Port → State
  | .P => (s.setP { s.p with ppos := s.pseq.cursor }).setPort .P { s.acceptedPort with phase := .run .len .L2 }
  | .C => s.withC { s.c with cpos := s.cseq.cursor } { s.acceptedPort with phase := .run .len .L2 }

section
variable {s : State} {a : Port}

theorem atL2_phase (ht : s.turn = a) : (s.atL2 a).phase = .run .len .L2 := by
  cases a with
  | P => exact setPort_P_phase (s := s.setP _) ht _
  | C => exact phase_of_cPort (s := s.atL2 .C) ht rfl

/-- LEN at its first load, with its acceptance. -/
theorem exec_len_first (ht : s.turn = a) (hp : s.phase = .idle) (hcfg : s.cfgState = .ready) :
    exec .len s = .next (s.atL2 a) := by
  rw [exec_first_common hp hcfg (.inl rfl), ht]
  cases a with
  | P =>
    simp only [stepOf, firstLabel, lenStep, setPort_turn, ht]
    exact goto_setPort (s := s.setP { s.p with ppos := s.pseq.cursor }) (x := s.acceptedPort) ht .L2
  | C =>
    simp only [stepOf, firstLabel, lenStep, setPort_turn, ht]
    exact goto_eq_withC
      (s := s.withC { s.c with cpos := s.cseq.cursor } { s.acceptedPort with phase := .run .len .L1 }) ht rfl .L2

/-- The second load on the P-port: the answer is own minus sample. -/
theorem exec_L2_P (ht : s.turn = .P) (hp : s.phase = .run .len .L2) :
    exec .len s =
      .next
        { s with
          p := { s.p with c := s.sample },
          pPort :=
            { s.pPort.answered ⟨.ok, narrow (s.p.ppos.toInt - s.sample.toInt), 0, []⟩ with floor := s.sample } } := by
  have hstep : lenStep .L2 s =
      respond ⟨.ok, narrow (s.p.ppos.toInt - s.sample.toInt), 0, []⟩
        (s.noteSample.setP { s.p with c := s.sample }) := by
    simp only [lenStep, ht]
  rw [noteSample_eq_setPort ht] at hstep
  exact (exec_middle hp rfl).trans (hstep.trans
    (respond_eq_setPort
      (s := (s.setPort .P { s.pPort with floor := s.sample }).setP { s.p with c := s.sample }) ht _))

/-- The second load on the C-port: the answer is sample minus own. -/
theorem exec_L2_C (ht : s.turn = .C) (hp : s.phase = .run .len .L2) :
    exec .len s =
      .next
        { s with
          c := { s.c with ppos := s.sample },
          cPort :=
            { s.cPort.answered ⟨.ok, narrow (s.sample.toInt - s.c.cpos.toInt), 0, []⟩ with floor := s.sample } } := by
  have hstep : lenStep .L2 s =
      respond ⟨.ok, narrow (s.sample.toInt - s.c.cpos.toInt), 0, []⟩
        (s.noteSample.setC { s.c with ppos := s.sample }) := by
    simp only [lenStep, ht]
  rw [noteSample_eq_withC ht] at hstep
  exact (exec_middle hp rfl).trans (hstep.trans
    (respond_eq_withC (s := s.withC { s.c with ppos := s.sample } { s.cPort with floor := s.sample }) ht _))

/-- Without lag the second load of LEN sees the other cursor, so the answer is the length (20_memory.md R59). -/
theorem exec_len_second (ht : s.turn = a) (hlag : s.params.sampleLag = .none) :
    ∃ t, exec .len (s.atL2 a) = .next t ∧ t.turn = a ∧
      t.port a = { s.acceptedPort.answered ⟨.ok, narrow s.length, 0, []⟩ with floor := s.otherCursor a } := by
  cases a with
  | P =>
    have hsample : (s.atL2 .P).sample = s.cseq.cursor := sample_eq_cseq (s := s.atL2 .P) ht hlag
    refine ⟨_, exec_L2_P ht (atL2_phase ht), ht, ?_⟩
    rw [hsample]
    rfl
  | C =>
    have hsample : (s.atL2 .C).sample = s.pseq.cursor := sample_eq_pseq (s := s.atL2 .C) ht hlag
    refine ⟨_, exec_L2_C ht (atL2_phase ht), ht, ?_⟩
    rw [hsample]
    rfl

end

theorem State.RingInv.length_bounds {s : State} (h : s.RingInv) : 0 ≤ s.length ∧ s.length ≤ s.size.toInt := by
  obtain ⟨-, hle, hfull, -⟩ := h
  unfold State.length
  omega

/-- Settles O22: the two loads of LEN (`exec_len_first`, `exec_len_second`), the second one in any mode (`exec_L2_P`,
`exec_L2_C`), and the length of a sound ring. -/
theorem lenAnswersLength : Obligations.LenAnswersLength := by
  refine ⟨fun s hinv hcfg hlag hp => ?_, fun s hp => ⟨fun ht => exec_L2_P ht hp, fun ht => exec_L2_C ht hp⟩⟩
  obtain ⟨h0, hle⟩ := (hinv.ready hcfg).ring.length_bounds
  have hfirst := exec_len_first rfl hp hcfg
  obtain ⟨t, hsecond, hturn, hport⟩ := exec_len_second (s := s) rfl hlag
  refine ⟨h0, hle, _, t, hfirst, atL2_phase rfl, hsecond, ?_, ?_⟩
  · have hu := exec_beyondCommon (.inl rfl) hfirst
    have ht := exec_beyondCommon (.inl rfl) hsecond
    exact sameRegisters_of_beyondCommon (ht.trans hu)
      (((exec_frame hsecond).done nofun).trans ((exec_frame hfirst).done nofun))
  · rw [hturn, hport]
    exact ⟨rfl, rfl⟩

end Sys2Proof.Machine
end

section
/-! PROOFS, family 60_exceptions.md. A count out of range is answered in the step that accepts the command. -/

namespace Sys2Proof.Machine

/-- The argument test on the two ranges R136 names: below 0 and above `SIZE`. -/
theorem argError_of_badCount {size n : Int} {e : Status} (h : (n < 0 ∧ e = .neg) ∨ (0 ≤ n ∧ size < n ∧ e = .full)) :
    argError size n = some e := by
  rcases h with ⟨hneg, rfl⟩ | ⟨h0, hfull, rfl⟩
  · rw [argError, if_pos hneg]
  · rw [argError, if_neg h0.not_gt, if_pos hfull]

/-- No payload stands against a WRITE whose count is out of range: what was presented is discarded (30_encoding.md
R77). -/
theorem payloadFits_write_of_argError {size n : Word} {e : Status} (he : argError size.toInt n.toInt = some e)
    (payload : List Byte) : (Instr.write n).payloadFits size payload = true := by
  have hout : ¬ (0 ≤ n.toInt ∧ n.toInt ≤ size.toInt) := fun hin => by
    rw [argError_eq_none.2 hin] at he
    cases he
  simp only [Instr.payloadFits, ← Bool.decide_and, hout, decide_false, Bool.not_false, Bool.true_or]

/-! ### The argument tests that answer (60_exceptions.md R136)

A1 and B1 end READ and PEEK here, as `exec_M1_error` says of M1 and COMMIT. -/

section
variable {s : State} {n : Word} {e : Status} (ht : s.turn = .C)
include ht

theorem exec_A1_neg (hp : s.cPort.phase = .run (.read n) .A1) (hneg : s.c.n.toInt < 0) :
    exec (.read n) s = .next (s.withC s.c (s.cPort.answered ⟨.neg, 0, 0, []⟩)) := by
  rw [exec_middle_C ht rfl hp, ← respond_eq_withC ht]
  simp only [stepOf, readStep, hneg, if_true]

theorem exec_B1_error (hp : s.cPort.phase = .run (.peek n) .B1) (he : argError s.size.toInt s.c.n.toInt = some e) :
    exec (.peek n) s = .next (s.withC s.c (s.cPort.answered ⟨e, 0, 0, []⟩)) := by
  rw [exec_middle_C ht rfl hp, ← respond_eq_withC ht]
  simp only [stepOf, peekStep, he]

end

/-! ### An IDLE port takes a command whose count is out of range -/

/-- Command `i` is answered `st` in the step that accepts it, and no register and no byte is written (60_exceptions.md
R135). -/
def State.AnswersAtOnce (s : State) (i : Instr) (st : Status) : Prop :=
  ∃ t, exec i s = .next t ∧ s.SameRegisters t ∧ t.port t.turn = s.acceptedPort.answered ⟨st, 0, 0, []⟩

/-- The state right after a consumer command was accepted: operands latched, first label (10_state.md R33, R34). -/
def State.acceptedAtC (s : State) (i : Instr) : State :=
  s.withC (latchOperands i s).c { s.acceptedPort with phase := .run i (firstLabel i) }

section
variable {s : State} {i : Instr} {st : Status}

/-- A command whose first step answers and else writes agent P's own part only, which is no register and no byte. -/
theorem answersAtOnce_P {p : PLatches} (ht : s.turn = .P)
    (hx : exec i s = .next ((s.setP p).setPort .P (s.acceptedPort.answered ⟨st, 0, 0, []⟩))) :
    s.AnswersAtOnce i st := by
  refine ⟨_, hx, ((State.SameRegisters.refl s).setP p).setPort _, ?_⟩
  rw [setPort_turn, setP_turn, ht]
  rfl

/-- A consumer command whose first step ends it: that step is taken in the state right after acceptance, in which
nothing but agent C's own part is new (log entry 7). -/
theorem answersAtOnce_C (ht : s.turn = .C) (hi : isConsumer i = true) (hp : s.phase = .idle)
    (hcfg : s.cfgState = .ready)
    (hx : exec i (s.acceptedAtC i) =
      .next ((s.acceptedAtC i).withC (s.acceptedAtC i).c ((s.acceptedAtC i).cPort.answered ⟨st, 0, 0, []⟩))) :
    s.AnswersAtOnce i st := by
  refine ⟨_, (exec_accepted_C ht hi hp hcfg).trans hx, ((State.SameRegisters.refl s).withC _ _).withC _ _, ?_⟩
  change State.port _ s.turn = _
  rw [ht]
  rfl

end

section
variable {s : State} {n : Word} {e : Status} (hcfg : s.cfgState = .ready) (hp : s.phase = .idle)
include hcfg hp

theorem write_badCount (ht : s.turn = .P) (hv : s.rsv.valid = false) (he : argError s.size.toInt n.toInt = some e) :
    s.AnswersAtOnce (.write n) e := by
  refine answersAtOnce_P (p := { s.p with n := n, data := takenPayload s.size n s.acceptedPort.payload }) ht ?_
  rw [exec_first ht hp (legal_eq_true.2 ⟨hcfg, rfl, by simp [admitted, hv]⟩) (payloadFits_write_of_argError he _)]
  simp only [stepOf, firstLabel, latchOperands, writeStep, setP_p, setP_size, setPort_p, setPort_size,
    setPort_P_pPort, he]
  exact respond_eq_setPort
    (s := (s.setP { s.p with n := n, data := takenPayload s.size n s.acceptedPort.payload }).setPort .P
      { s.acceptedPort with phase := .run (.write n) .W1 }) ht _

theorem read_negCount (ht : s.turn = .C) (hneg : n.toInt < 0) : s.AnswersAtOnce (.read n) .neg :=
  answersAtOnce_C ht rfl hp hcfg (exec_A1_neg (s := s.acceptedAtC _) ht rfl hneg)

theorem peek_badCount (ht : s.turn = .C) (he : argError s.size.toInt n.toInt = some e) :
    s.AnswersAtOnce (.peek n) e :=
  answersAtOnce_C ht rfl hp hcfg (exec_B1_error (s := s.acceptedAtC _) ht rfl he)

theorem commit_badCount (ht : s.turn = .C) (he : argError s.size.toInt n.toInt = some e) :
    s.AnswersAtOnce (.commit n) e :=
  answersAtOnce_C ht rfl hp hcfg (exec_M1_error (s := s.acceptedAtC _) ht rfl he)

end

/-- Settles O27: one lemma per command. Of READ only a negative count is a bad one, so its status is `NEG`. -/
theorem badCountIsAnswered : Obligations.BadCountIsAnswered := by
  intro i n s st hcfg hp hi hbad
  have he := argError_of_badCount hbad
  rcases hi with ⟨rfl, ht, hv⟩ | ⟨ht, rfl | rfl | ⟨rfl, hneg⟩⟩
  · exact write_badCount hcfg hp ht hv he
  · exact peek_badCount hcfg hp ht he
  · exact commit_badCount hcfg hp ht he
  · obtain rfl : st = .neg := hbad.elim (·.2) (fun h => absurd hneg h.1.not_gt)
    exact read_negCount hcfg hp ht hneg

end Sys2Proof.Machine
end

section
/-! PROOFS, family 70_reset_and_hazards.md. The strap checks, the hint, and the worked configurations. -/

namespace Sys2Proof.Machine

/-! ### The strap checks -/

/-- R149: the bit test accepts exactly the powers of two an `int64` holds. -/
theorem isPow2_iff {w : Word} : isPow2 w = true ↔ ∃ k : Nat, w.toInt = 2 ^ k := by
  constructor
  · intro h
    obtain ⟨k, hk, hw⟩ := pow2_of_isPow2 w h
    exact ⟨k, by rw [(toInt_pow2 hk hw).1, hw]; norm_cast⟩
  · rintro ⟨k, hk⟩
    have hpos : 1 ≤ w.toInt := hk ▸ one_le_pow₀ (by norm_num)
    have hnat : w.toNat = 2 ^ k := by
      have := toNat_of_nonneg w (by omega)
      rw [hk] at this
      exact_mod_cast this
    have hand : w &&& (w - 1) = 0 := by
      have hle : 1 ≤ w := by rw [BitVec.le_def, hnat]; exact Nat.one_le_two_pow
      apply BitVec.eq_of_toNat_eq
      rw [BitVec.toNat_and, BitVec.toNat_sub_of_le hle, hnat]
      exact (Nat.and_two_pow_sub_one_eq_mod _ k).trans (Nat.mod_self _)
    rw [isPow2, decide_eq_true hpos, decide_eq_true hand, Bool.and_self]

section
variable {q : Params} {w : Word}

/-- Z1 to Z4 for a positive strap (R149, R150). -/
theorem checkSize_of_pos (h : 1 ≤ w.toInt) :
    checkSize q w =
      if isPow2 w then if w.toInt < q.minSize then .fail .tooSmall 0 else .size w
      else .fail .notPow2 (hintOf q w.toInt) := by
  have hne : w ≠ 0 := by rintro rfl; simp at h
  have hneg : ¬ w.toInt < 0 := by omega
  rw [checkSize, if_neg hneg]
  simp only [if_neg hne]
  cases isPow2 w <;> rfl

/-- Z1 to Z4 for a power of two: only `2 * RBLK` is left to reach. -/
theorem checkSize_of_pow2 {k : Nat} (h : w.toInt = 2 ^ k) :
    checkSize q w = if w.toInt < q.minSize then .fail .tooSmall 0 else .size w := by
  rw [checkSize_of_pos (h ▸ one_le_pow₀ (by norm_num)), if_pos (isPow2_iff.2 ⟨k, h⟩)]

/-- The strap 0 stands for `DEFSIZE`, which an `int64` holds. -/
theorem checkSize_zero (h : 1 ≤ (narrow q.defSize).toInt) : checkSize q 0 = checkSize q (narrow q.defSize) := by
  have hne : narrow q.defSize ≠ 0 := by intro h0; simp [h0] at h
  have hneg : ¬ (narrow q.defSize).toInt < 0 := by omega
  rw [checkSize, checkSize, if_neg hneg]
  simp only [if_neg hne]
  rfl

/-- `DEFSIZE` as a word, of admissible parameters. -/
theorem toInt_narrow_defSize (h : q.ok = true) :
    ∃ k : Nat, k ≤ 62 ∧ (q.defSize : Int) = 2 ^ k ∧ (narrow q.defSize).toInt = 2 ^ k := by
  obtain ⟨-, -, -, -, k, hk, hdef⟩ := Params.ok_facts h
  have hle : 2 ^ k ≤ 2 ^ 62 := Nat.pow_le_pow_right (by norm_num) (by omega)
  have hcast : (q.defSize : Int) = 2 ^ k := by exact_mod_cast hdef
  refine ⟨k, by omega, hcast, ?_⟩
  rw [← hcast]
  exact toInt_narrow _ (by unfold minInt64; omega) (by unfold maxInt64; omega)

end

/-- Settles O54: a strap is negative, 0 or positive, and a positive one is judged by `checkSize_of_pos`. -/
theorem configurationOutcomes : Obligations.ConfigurationOutcomes := by
  intro q w hq
  refine ⟨fun hneg => ?_, ?_, fun hpos hno => ?_, fun k hk hlt => ?_, fun k hk hle => ?_⟩
  · rw [checkSize, if_pos hneg]
  · rintro rfl
    obtain ⟨-, -, -, hmin, -⟩ := Params.ok_facts hq
    obtain ⟨k, -, hdef, hk⟩ := toInt_narrow_defSize hq
    have hle : ¬ (narrow q.defSize).toInt < q.minSize := by unfold Params.minSize; omega
    rw [checkSize_zero (hk ▸ one_le_pow₀ (by norm_num)), checkSize_of_pow2 hk, if_neg hle]
  · rw [checkSize_of_pos hpos, if_neg (fun h => (isPow2_iff.1 h).elim hno)]
  · rw [checkSize_of_pow2 hk, if_pos hlt]
  · rw [checkSize_of_pow2 hk, if_neg (by omega)]

/-! ### The hint -/

/-- The search through `fuel` doublings of `2 ^ i` finds the least power of two that reaches `b`, if it comes so far
and does not start above it. -/
theorem leastDoubling_pow2 {b : Nat} (fuel : Nat) : ∀ {i : Nat}, i ≤ Nat.clog 2 b →
    leastDoubling b fuel (2 ^ i) = if Nat.clog 2 b < i + fuel then 2 ^ Nat.clog 2 b else 0 := by
  induction fuel with
  | zero => intro i hi; simp [leastDoubling, hi]
  | succ fuel ih =>
    intro i hi
    have hreach : (b : Int) ≤ 2 ^ i ↔ Nat.clog 2 b ≤ i := by
      rw [Nat.clog_le_iff_le_pow one_lt_two]
      norm_cast
    rw [leastDoubling]
    by_cases h : Nat.clog 2 b ≤ i
    · obtain rfl : Nat.clog 2 b = i := by omega
      rw [if_pos (hreach.2 h), if_pos (by omega)]
    · rw [if_neg (hreach.not.2 h), ← pow_succ', ih (by omega), Nat.add_right_comm, Nat.add_assoc]

/-- R151: the hint in closed form, for a count that is not negative. -/
theorem hintOf_eq (q : Params) (n : Nat) :
    hintOf q n = if Nat.clog 2 (max n q.minSize) ≤ 62 then 2 ^ Nat.clog 2 (max n q.minSize) else 0 := by
  have h := leastDoubling_pow2 (b := max n q.minSize) 63 (Nat.zero_le _)
  simp only [Nat.zero_add, Nat.lt_succ_iff, pow_zero, Nat.cast_max] at h
  exact h

/-- The least power of two that reaches both `n` and `2 * RBLK`. -/
theorem clog_max_minSize_le {q : Params} {n j : Nat} :
    Nat.clog 2 (max n q.minSize) ≤ j ↔ (n : Int) ≤ 2 ^ j ∧ (q.minSize : Int) ≤ 2 ^ j := by
  rw [Nat.clog_le_iff_le_pow one_lt_two, max_le_iff]
  norm_cast

/-- `2 * RBLK` of admissible parameters is no obstacle to a hint: some legal size reaches it. -/
theorem minSize_le_of_ok {q : Params} (h : q.ok = true) : (q.minSize : Int) ≤ 2 ^ 62 := by
  obtain ⟨-, -, -, hmin, -⟩ := Params.ok_facts h
  obtain ⟨k, hk, hdef, -⟩ := toInt_narrow_defSize h
  have hle : (2 : Int) ^ k ≤ 2 ^ 62 := pow_le_pow_right₀ (by norm_num) hk
  unfold Params.minSize
  omega

/-- Settles O55: the exponent of the hint is a ceiling logarithm (`hintOf_eq`), which is at most `j` exactly when `2 ^ j`
reaches both bounds (`clog_max_minSize_le`). -/
theorem hintIsLeastAcceptedSize : Obligations.HintIsLeastAcceptedSize := by
  refine ⟨fun q s hq hs => ?_, by decide, by decide, by decide, by decide⟩
  obtain ⟨n, rfl⟩ := Int.eq_ofNat_of_zero_le (by omega : 0 ≤ s)
  rw [hintOf_eq]
  refine ⟨fun hbig => if_neg fun h => ?_, fun hle => ?_⟩
  · exact absurd (clog_max_minSize_le.1 h).1 (by omega)
  · have h62 := clog_max_minSize_le.2 ⟨hle, minSize_le_of_ok hq⟩
    obtain ⟨hreach, hmin⟩ := clog_max_minSize_le.1 (le_refl (Nat.clog 2 (max n q.minSize)))
    rw [if_pos h62]
    exact ⟨_, h62, rfl, hreach, hmin, fun j hj hjmin =>
      pow_le_pow_right₀ (by norm_num) (clog_max_minSize_le.2 ⟨hj, hjmin⟩)⟩

/-! ### The worked configurations -/

/-- The configuration registers after a reset whose strap is accepted. -/
theorem resetWith_of_size {s : State} {z w : Word} (hz : checkSize s.params z = .size w) (id : Word) :
    (resetWith z id s).cfgState = .ready ∧ (resetWith z id s).size = w ∧
      (resetWith z id s).mask = narrow (w.toInt - 1) ∧ (resetWith z id s).addrBits = Nat.log2 w.toInt.toNat := by
  have hsize : (resetWith z id s).size = w := by rw [resetWith, hz]
  refine ⟨?_, hsize, ?_, by rw [State.addrBits, State.sizeNat, hsize]⟩
  all_goals rw [resetWith, hz]

/-- The status registers after a reset whose strap is refused. -/
theorem resetWith_of_fail {s : State} {z : Word} {e : Status} {h : Int} (hz : checkSize s.params z = .fail e h)
    (id : Word) :
    (resetWith z id s).cfgState = .cfgFail ∧ (resetWith z id s).cfgErr = e ∧ (resetWith z id s).hint = narrow h := by
  obtain ⟨hstate, herr, hhint, -⟩ := failedConfigurationAnswersIllegal.1 s z id e h hz
  exact ⟨hstate, herr, hhint⟩

/-- Settles O56: the strap check computes each of the eight outcomes, and a reset sets the registers by it. -/
theorem workedConfigurations : Obligations.WorkedConfigurations := by
  intro s id hq
  have hsize (z w : Word) (h : checkSize Config.defaultParams z = .size w) :=
    resetWith_of_size (s := s) (hq ▸ h) id
  have hfail (z : Word) (e : Status) (x : Int) (h : checkSize Config.defaultParams z = .fail e x) :=
    resetWith_of_fail (s := s) (hq ▸ h) id
  obtain ⟨hready, -, hmask, -⟩ := hsize 2048 2048 (by decide)
  obtain ⟨hstate1024, herr1024, -⟩ := hfail 1024 .tooSmall 0 (by decide)
  obtain ⟨hstateNeg, herrNeg, -⟩ := hfail (-1) .neg 0 (by decide)
  obtain ⟨hstate1, herr1, -⟩ := hfail 1 .tooSmall 0 (by decide)
  exact ⟨hsize 4096 4096 (by decide), ⟨hready, hmask⟩, hsize 0 1048576 (by decide), ⟨hstate1024, herr1024⟩,
    hfail 4095 .notPow2 4096 (by decide), hfail 1000 .notPow2 2048 (by decide), ⟨hstateNeg, herrNeg⟩, hstate1, herr1⟩

end Sys2Proof.Machine
end
